-- ==== Sys2Proof/Word.lean ====
section
/-! DEFINITION. The word types of the engine (00_scope.md R11, R17; 20_memory.md R55). -/

namespace Sys2Proof

/-- An 8-bit byte (R17's `u8`): a bridge command byte, a request argument, a response byte. -/
abbrev Byte := BitVec 8

/-- A core request word, format `REQ16` (30_encoding.md R63). -/
abbrev Req16 := BitVec 16

/-- A bridge transaction word, format `BTX9` (30_encoding.md R64). -/
abbrev Btx9 := BitVec 9

/-- The shift buffer and a conversion value (R17's `u24`). -/
abbrev U24 := BitVec 24

/-- A Conversion Sample (R36's `s32`), held in two's complement. -/
abbrev Sample32 := BitVec 32

end Sys2Proof
end

