-- ==== Sys2Proof/Config.lean ====
section
/-! DEFINITION. The parameters of a model case (00_scope.md R12 to R14), what the host can put on the
engine's inputs in one tick (10_state.md R23, 42_bridge.md R131), and the free values. -/

namespace Sys2Proof

/-- The two configurations of the engine (00_scope.md R3). -/
inductive Kind where
  | core      -- the host drives the core request port (R23)
  | bridge    -- the host reaches the core only through bus transactions (R130)
deriving DecidableEq, Repr

/-- The two command bytes the source gives no value for (R14, R68); the defaults are R14's. -/
structure CmdBytes where
  sleep : Byte := 0x01
  wake  : Byte := 0x02
deriving DecidableEq, Repr

/-- R131: the ways the spec names in which a bus holds a transaction that finds the bridge busy. -/
inductive BusHold where
  | stretch   -- clock stretching
  | nak       -- the host is refused and presents the transaction again
  | queue     -- the bus stores transactions
deriving DecidableEq, Repr

/-- `P_BUS` (R14, R16, D18), which the spec leaves OPEN: as much of the bus as shows at the level of
whole transactions (DESIGN CHOICE, assumption 9). Its byte framing is out of scope (R7). -/
structure BusParam where
  hold      : BusHold
  keepsHeld : Bool      -- whether transactions that wait survive a reset of the engine (R170)
deriving DecidableEq, Repr

/-- The parameters. R44: they are fixed for a model case and no request changes them.
`tickNs` is a whole number of nanoseconds, which R12 does not say (DESIGN CHOICE, assumption 25).
`readyTimeout` is the core configuration's bound: the bridge's core has the bound of R130
(`readyBound` in Machine/Ops.lean). `chipPresent` is the platform of R156 (a missing or dead chip). -/
structure Config where
  kind         : Kind
  tickNs       : Nat
  tHigh        : Nat
  tLow         : Nat
  tSleepHold   : Nat
  poll         : Nat
  readyTimeout : Option Nat   -- none is the spec's `NONE`
  gainCheck    : Bool
  gainReset    : Byte
  cmd          : CmdBytes
  chipPresent  : Bool
  bridgeAddr   : Nat          -- P_BRIDGE_ADDR, OPEN (R14, R16, R52)
  bus          : BusParam     -- P_BUS, OPEN (R14, R16)
deriving DecidableEq, Repr

/-- R130: the readiness bound of the bridge's core, `ceil(100000000 / P_TICK_NS)` ticks (100 ms), for a
whole `P_TICK_NS` (assumption 25). -/
def Config.bridgeTimeout (tickNs : Nat) : Nat := (100000000 + (tickNs - 1)) / tickNs

/-- The core configuration at the defaults of R12 to R14. The OPEN parameters have no default; address 0
and a queue that a reset empties are the model's (DESIGN CHOICE, assumption 9). -/
def Config.coreDefault : Config where
  kind := .core
  tickNs := 1000
  tHigh := 1
  tLow := 1
  tSleepHold := 80
  poll := 1
  readyTimeout := none
  gainCheck := true
  gainReset := 1
  cmd := { sleep := 0x01, wake := 0x02 }
  chipPresent := true
  bridgeAddr := 0
  bus := { hold := .queue, keepsHeld := false }

/-- The same parameters in the bridge configuration. -/
def Config.asBridge (p : Config) : Config := { p with kind := .bridge }

/-- The bridge configuration at the defaults of R12 to R14. -/
def Config.bridgeDefault : Config := Config.coreDefault.asBridge

/-- One transaction on the bus: the address it is sent to (R52), the `BTX9` word (R64) and the number
of data bytes the host transfers (4 for a whole read, 1 for a write; other lengths are R139's). -/
structure BusTxn where
  addr : Nat
  word : Btx9
  len  : Nat
deriving DecidableEq, Repr, Inhabited

/-- What stands on the inputs in one tick: `rst`, the request (`req_valid` and `req_word` of R23),
a bus transaction that arrives (R131), and `dout_i` where a DOUT script fixes it (R79). -/
structure TickIn where
  rst  : Bool
  req  : Option Req16
  txn  : Option BusTxn
  dout : Option Bool
deriving DecidableEq, Repr, Inhabited

/-- FREE VALUE (R19): the level the chip chooses for DOUT in tick `n`, wherever R150 to R156 leave it
open; while the chip is converting, LOW means that the conversion is complete in that tick. -/
opaque Config.doutDraw : Nat → Bool

/-- FREE VALUE (R151, 93 I3): the value of the conversion that the chip completes in tick `n`. -/
opaque Config.conversionDraw : Nat → U24

/-- FREE VALUE (R22, R24): what the host puts on the inputs in tick `n`, where the state fixes none. -/
opaque Config.hostDraw : Nat → TickIn

/-- FREE VALUE (R139, 93 I7): byte `i` (`i ≥ 4`) of an over-long bridge read answered in tick `n`. -/
opaque Config.overReadByte : Nat → Nat → Byte

end Sys2Proof
end

