-- ==== Sys2Proof/Syntax.lean ====
section
/-! DEFINITION. The instructions: one constructor per row of spec/opcode_table.json. -/

namespace Sys2Proof

/-- The five core requests (30_encoding.md R70) and the six bridge transactions (R71). An `arg` or
`cmd` that the spec says should be zero and is ignored (R73, R74) is kept, so that no bit of the
word is lost between decoding and encoding. -/
inductive Instr where
  | read    (arg : Byte)   -- 41_core_requests.md R112
  | waitrdy (arg : Byte)   -- R114
  | setgain (n : Byte)     -- R116
  | sleep   (arg : Byte)   -- R119
  | wake    (arg : Byte)   -- R121
  | bwGain128              -- 42_bridge.md R132
  | bwGain32               -- R133
  | bwGain64               -- R134
  | bwSleep                -- R135
  | bwWake                 -- R136
  | br      (cmd : Byte)   -- R138
deriving DecidableEq, Repr

end Sys2Proof
end

