-- ==== Sys2Proof/WellFormed.lean ====
section
/-! DEFINITION. Which instructions the encoding can carry. Operand widths are in the types; what is
left to check is R14's side condition on the two command bytes that are parameters. -/

namespace Sys2Proof

/-- The gain-select bytes 0x19 to 0x1B are taken (30_encoding.md R67), so R14 and R68 keep the sleep
and wake bytes away from them. -/
def isGainByte (b : Byte) : Bool := b == 0x19 || b == 0x1A || b == 0x1B

/-- `i` can be written as a word under the command bytes `p`: BW.SLEEP and BW.WAKE need bytes of
their own (R14, R68); every other instruction has fixed bits. -/
def Instr.wellFormed (p : CmdBytes) : Instr → Bool
  | .read _ => true
  | .waitrdy _ => true
  | .setgain _ => true
  | .sleep _ => true
  | .wake _ => true
  | .bwGain128 => true
  | .bwGain32 => true
  | .bwGain64 => true
  | .bwSleep => !isGainByte p.sleep
  | .bwWake => !isGainByte p.wake && p.wake != p.sleep
  | .br _ => true

end Sys2Proof
end

