-- ==== Sys2Proof/Decode.lean ====
section
/-! DEFINITION. The decoder of both word formats, total and rejecting by name, the encoder written
from the same tables, and the assembler's pseudo-instructions (30_encoding.md). -/

namespace Sys2Proof

/-- A word on one of the two ports: `REQ16` on the core request port, `BTX9` from the bus. -/
inductive PortWord where
  | req (w : Req16)
  | btx (w : Btx9)
deriving DecidableEq, Repr

/-- What a word decodes to. The two rejections are no stops of the machine: the spec gives each an
effect of its own (R123, R137). -/
inductive Decoded where
  | instr (i : Instr)
  | reservedOp (op : Byte)      -- R72: ILLEGAL when accepted
  | ignoredWrite (cmd : Byte)   -- R74: the bridge drops the write
deriving DecidableEq, Repr

/-- R63: `op = req_word[15:8]`. -/
def opField (w : Req16) : Byte := w.extractLsb' 8 8

/-- R63: `arg = req_word[7:0]`. -/
def argField (w : Req16) : Byte := w.extractLsb' 0 8

/-- R64: `dir`, bit 8 of the transaction word; 1 is a read. -/
def dirField (w : Btx9) : Bool := w.getLsbD 8

/-- R64: `cmd`, bits 7:0 of the transaction word. -/
def cmdField (w : Btx9) : Byte := w.extractLsb' 0 8

/-- R63: the request word `{op, arg}`. -/
def mkReq (op arg : Byte) : Req16 := op ++ arg

/-- R64: the transaction word `{dir, cmd}`. -/
def mkBtx (dir : Bool) (cmd : Byte) : Btx9 := BitVec.ofBool dir ++ cmd

/-- The core op-code map (R70, R72). -/
def decodeReq (w : Req16) : Decoded :=
  if opField w = 0x01 then .instr (.read (argField w))
  else if opField w = 0x02 then .instr (.waitrdy (argField w))
  else if opField w = 0x03 then .instr (.setgain (argField w))
  else if opField w = 0x04 then .instr (.sleep (argField w))
  else if opField w = 0x05 then .instr (.wake (argField w))
  else .reservedOp (opField w)

/-- The bridge transaction map (R71, R74), with the command bytes `p` of R68. -/
def decodeBtx (p : CmdBytes) (w : Btx9) : Decoded :=
  if dirField w then .instr (.br (cmdField w))
  else if cmdField w = 0x19 then .instr .bwGain128
  else if cmdField w = 0x1A then .instr .bwGain32
  else if cmdField w = 0x1B then .instr .bwGain64
  else if cmdField w = p.sleep then .instr .bwSleep
  else if cmdField w = p.wake then .instr .bwWake
  else .ignoredWrite (cmdField w)

/-- The decoder, on the words of either port. -/
def decode (p : CmdBytes) : PortWord → Decoded
  | .req w => decodeReq w
  | .btx w => decodeBtx p w

/-- The encoder (R70, R71, R77). -/
def encode (p : CmdBytes) : Instr → PortWord
  | .read arg => .req (mkReq 0x01 arg)
  | .waitrdy arg => .req (mkReq 0x02 arg)
  | .setgain n => .req (mkReq 0x03 n)
  | .sleep arg => .req (mkReq 0x04 arg)
  | .wake arg => .req (mkReq 0x05 arg)
  | .bwGain128 => .btx (mkBtx false 0x19)
  | .bwGain32 => .btx (mkBtx false 0x1A)
  | .bwGain64 => .btx (mkBtx false 0x1B)
  | .bwSleep => .btx (mkBtx false p.sleep)
  | .bwWake => .btx (mkBtx false p.wake)
  | .br cmd => .btx (mkBtx true cmd)

/-- Which port a word of the opcode table belongs to. The table numbers the rows of both formats in
one number space. A word of fewer than 16 bits is a `BTX9` word; a 16-bit word whose bits 15:8 are 0
is one too, since no `REQ16` row has op 0x00; any other 16-bit word is a `REQ16` word. So 0x0100 at
16 bits is READ, and BR's same number is BR at fewer bits (assumption 13). -/
def tableWord (nbits w : Nat) : PortWord :=
  if nbits < 16 then .btx (BitVec.ofNat 9 w)
  else if w < 0x100 then .btx (BitVec.ofNat 9 w)
  else .req (BitVec.ofNat 16 w)

/-- The instruction of a decoding, if it is one. -/
def Decoded.instr? : Decoded → Option Instr
  | .instr i => some i
  | .reservedOp _ => none
  | .ignoredWrite _ => none

/-- The instruction this decoder reads from a word of spec/opcode_table.json, which shows BW.SLEEP
and BW.WAKE at the default command bytes. -/
def decodeTableWord (nbits w : Nat) : Option Instr :=
  (decode Config.coreDefault.cmd (tableWord nbits w)).instr?

/-- The assembler's pseudo-instructions (R78); `setPulses t` is legal for 25 ≤ t ≤ 27. -/
inductive Pseudo where
  | gain128
  | gain32
  | gain64
  | setPulses (t : Nat)
  | deepSleep (on : Bool)
deriving DecidableEq, Repr

/-- R78's expansions into core requests; the `BW.*` names of R78 are instructions of the table. -/
def expandPseudo : Pseudo → Option Instr
  | .gain128 => some (.setgain 1)
  | .gain32 => some (.setgain 2)
  | .gain64 => some (.setgain 3)
  | .setPulses t => if 25 ≤ t ∧ t ≤ 27 then some (.setgain (BitVec.ofNat 8 (t - 24))) else none
  | .deepSleep true => some (.sleep 0)
  | .deepSleep false => some (.wake 0)

end Sys2Proof
end

