-- ==== Sys2Proof/Machine/State.lean ====
section
/-! DEFINITION. The state of the whole machine as plain data (10_state.md), the reasons a step can
stop, and the state right after reset (R46). The engine has no memory array (20_memory.md, opening
words), no general registers (R26) and no program counter (R27). -/

namespace Sys2Proof.Machine

/-- The engine has no trap and no fault: every error condition is a STATUS flag and the engine goes
on (60_exceptions.md R140, R149). So no step ever faults, and the type has no constructor. -/
inductive Fault where
deriving DecidableEq, Repr

/-- The reasons the model gives a step no meaning. -/
inductive Refusal where
  /-- Raised by an arm of exec that has no meaning yet (there is none). SAFE: the machine stops. -/
  | notModelled (mnemonic : String)
  /-- Raised by the step in a state whose parameters are outside R12 to R14: the spec itself refuses
  them (60_exceptions.md R155, 93 I5). SAFE: the machine stops. -/
  | configOutOfRange
  /-- Raised when the bridge takes a write transaction of 0 bytes or of more than 1 byte: the spec
  itself refuses it (42_bridge.md R139, 93 I8). SAFE: the machine stops. -/
  | busWriteLength
deriving DecidableEq, Repr

/-- R31: the engine's sequencing state. -/
inductive Fsm where
  | idle
  | wait
  | high
  | low
  | slpLow
  | slpHold
deriving DecidableEq, Repr

/-- R31: which request started WAIT. -/
inductive WaitMode where
  | rd
  | rdy
deriving DecidableEq, Repr

/-- STATUS[6:2], the outcome flags (R38). STATUS[0], [1] and [7] are views of `fsm`, `sleep` and
`doutLast`: `statusWord` (Machine/Flags.lean) builds the register. -/
structure OutcomeFlags where
  timeout  : Bool   -- STATUS[2]
  badGain  : Bool   -- STATUS[3]
  sleepErr : Bool   -- STATUS[4]
  overrun  : Bool   -- STATUS[5]
  illegal  : Bool   -- STATUS[6]
deriving DecidableEq, Repr

/-- STATUS[6:2] = 0. -/
def OutcomeFlags.clear : OutcomeFlags := ⟨false, false, false, false, false⟩

/-- The engine's registers (R28 to R38). -/
structure Engine where
  gainN    : Byte          -- GAIN_N, R28
  sleep    : Bool          -- SLEEP, R29
  sck      : Bool          -- SCK, R30; the pin sck_o
  fsm      : Fsm           -- FSM, R31
  mode     : WaitMode      -- MODE, R31
  k        : BitVec 9      -- K, R32
  c        : Nat           -- C, R33
  pollc    : Nat           -- POLLC, R34
  tmo      : Nat           -- TMO, R34
  shreg    : U24           -- SHREG, R35
  result   : Sample32      -- RESULT, R36; the port result
  doutLast : Bool          -- DOUT_LAST, R37
  flags    : OutcomeFlags  -- STATUS[6:2], R38
deriving DecidableEq, Repr

/-- R43 (a): the chip's input and gain selection for its next conversion: not known (R184, 93 I10), or
the one that `n` post-amble pulses select (R153). -/
inductive ChipSel where
  | unknown
  | programmed (n : Nat)
deriving DecidableEq, Repr

/-- One conversion: the value, and the selection it was converted under. -/
structure Conversion where
  value : U24
  sel   : ChipSel
deriving DecidableEq, Repr

/-- R43 (c), with what the chip's contract says of DOUT in each case (R150 to R152). -/
inductive ChipPhase where
  | converting                  -- no conversion is ready
  | ready (v : Conversion)      -- a conversion is ready and no shift has begun (R150)
  | shifting (v : Conversion)   -- pulses of a reading shift it out (R151, R152)
  | uncertain                   -- the contract says nothing: every DOUT level is a draw (93 I1, I4)
deriving DecidableEq, Repr

/-- The chip agent's hidden state (R43), as far as the contract R150 to R156 speaks of it. -/
structure Chip where
  asleep : Bool       -- R43 (b)
  hold   : Nat        -- ticks SCK has been HIGH without a break (R154)
  sel    : ChipSel    -- R43 (a)
  phase  : ChipPhase  -- R43 (c)
  pulses : Nat        -- rising edges of the reading in progress (R151 to R153)
deriving DecidableEq, Repr

/-- R45: the bridge controller's sequencing state. -/
inductive Bfsm where
  | bIdle
  | bWait
  | bRun
deriving DecidableEq, Repr

/-- R45: the bridge controller, with the transaction it holds (BTXN and its length, R139). -/
structure Bridge where
  bfsm : Bfsm
  btxn : Btx9
  blen : Nat
deriving DecidableEq, Repr

/-- What the bridge hands to the bus in a tick: nothing, the completion of a write, or the response
bytes of a read in transfer order (R131, R138). -/
inductive BusOut where
  | quiet
  | writeDone
  | response (bytes : List Byte)
deriving DecidableEq, Repr

/-- The bus as the bridge sees it: transactions it holds until B_IDLE, oldest first (R131), and what
the bridge handed to it in the last tick. -/
structure Bus where
  held : List BusTxn
  out  : BusOut
deriving DecidableEq, Repr

/-- The whole machine. `cfg` holds the parameters (no step changes them, R44), `inputs` what stands on
the inputs in this tick and the next ones (head first; beyond its end they are free), and `tick`
counts ticks, so that each tick has free values of its own. -/
structure State where
  cfg    : Config
  core   : Engine
  chip   : Chip
  bridge : Bridge
  bus    : Bus
  inputs : List TickIn
  tick   : Nat
deriving DecidableEq, Repr

/-- R46: the engine's registers after reset. -/
def Engine.reset (p : Config) : Engine where
  gainN := p.gainReset
  sleep := false
  sck := false
  fsm := .idle
  mode := .rd
  k := 0
  c := 1
  pollc := 0
  tmo := 0
  shreg := 0
  result := 0
  doutLast := true
  flags := OutcomeFlags.clear

/-- R46: BFSM after reset; the held transaction has no reset value in the spec (assumption 8). -/
def Bridge.reset : Bridge where
  bfsm := .bIdle
  btxn := 0
  blen := 0

/-- The chip as the first reset tick leaves it: awake (R171), its selection not known and no
conversion ready yet (assumption 6). -/
def Chip.start : Chip where
  asleep := false
  hold := 0
  sel := .unknown
  phase := .converting
  pulses := 0

/-- The machine right after reset under the parameters `p` (R46). -/
def State.resetWith (p : Config) : State where
  cfg := p
  core := Engine.reset p
  chip := Chip.start
  bridge := Bridge.reset
  bus := { held := [], out := .quiet }
  inputs := []
  tick := 0

/-- The machine right after reset, in the core configuration at the defaults (R46, R12 to R14). -/
def State.reset : State := State.resetWith Config.coreDefault

end Sys2Proof.Machine
end

