-- ==== Sys2Proof/Machine/ChipContract.lean ====
section
/-! DEFINITION. The chip agent: its hidden state (10_state.md R43) moved by the pins, and the level it
may drive on DOUT, as far as the contract of 60_exceptions.md R150 to R156 fixes it. Wherever the
contract leaves a level open, the level is a free value. -/

namespace Sys2Proof.Machine

/-- R154, R12: SCK held HIGH for more than this many nanoseconds puts the chip in deep sleep. The
source says "~60 us"; DEDUCED (assumption 5). -/
def sleepThresholdNs : Nat := 60000

/-- The level on DOUT, given whether a chip is there, the pin SCK, whether the tick is the sample point
of a pulse (R83), and the draw for open levels.
A missing chip reads HIGH (R156). Asleep, nothing is known (93 I12). A ready conversion holds DOUT
LOW until the shift begins (R150). At the sample point of data pulse `K` the level is conversion bit
`23 - K` (R151); in the ticks before it is open (91 N6). At that of the 25th pulse it is HIGH (R152;
that it is open before it there too is a DESIGN CHOICE, assumption 28), and beyond it is open (93 I2).
While the chip converts, the draw says whether the conversion completes in this tick (R150). -/
def chipLevel (present sck atSample draw : Bool) (c : Chip) : Bool :=
  if !present then true
  else if c.asleep then draw
  else match c.phase with
    | .uncertain => draw
    | .converting => draw
    | .ready _ => if sck then draw else false
    | .shifting v =>
      if !atSample then draw
      else if c.pulses ≤ 24 then v.value.getLsbD (24 - c.pulses)
      else if c.pulses = 25 then true
      else draw

/-- R150: an awake chip that converts and shows LOW has completed a conversion, of value `v`, under the
selection it holds (R153). -/
def chipSampled (sck d : Bool) (v : U24) (c : Chip) : Chip :=
  match c.phase with
  | .converting => if !sck && !c.asleep && !d then { c with phase := .ready ⟨v, c.sel⟩ } else c
  | .ready _ => c
  | .shifting _ => c
  | .uncertain => c

/-- R153: a finished reading with 1, 2 or 3 post-amble pulses programs the next conversion, and DOUT is
HIGH until that is ready (R152); any other count leaves everything open (93 I1). -/
def chipReadingDone (c : Chip) : Chip :=
  if 25 ≤ c.pulses ∧ c.pulses ≤ 27 then
    { c with sel := .programmed (c.pulses - 24), phase := .converting, pulses := 0 }
  else { c with sel := .unknown, phase := .uncertain, pulses := 0 }

/-- R154, R184: SCK LOW makes a sleeping chip resume; when its first conversion comes and under which
selection is open (93 I6). -/
def chipResumed (c : Chip) : Chip :=
  { c with
    asleep := false
    hold := 0
    sel := .unknown
    phase := if c.phase = .uncertain then .uncertain else .converting
    pulses := 0 }

/-- R154: SCK HIGH for one more tick. -/
def chipHeldHigh (tickNs : Nat) (c : Chip) : Chip :=
  { c with
    hold := c.hold + 1
    asleep := c.asleep || decide (sleepThresholdNs < (c.hold + 1) * tickNs) }

/-- SCK LOW for one more tick: a sleeping chip resumes, an awake one stays as it is. R155 gives no bound
for the LOW phase and 91 N7 none for the delay that the chip takes as a protocol reset; that no LOW
phase within R12's range is one is the model's (DESIGN CHOICE, assumption 26). -/
def chipHeldLow (c : Chip) : Chip :=
  if c.asleep then chipResumed c else { c with hold := 0 }

/-- A rising edge of a reading, the first of its train or a later one (R150, R151). -/
def chipPulse (first : Bool) (c : Chip) : Chip :=
  { c with
    pulses := if first then 1 else c.pulses + 1
    phase := match c.phase with
      | .ready v => .shifting v
      | .shifting v => .shifting v
      | .converting => .uncertain
      | .uncertain => .uncertain }

/-- What the chip sees on SCK in a tick that takes the engine from `pre` to `post`. -/
def chipEdges (tickNs : Nat) (pre post : Engine) (c : Chip) : Chip :=
  let c1 := if post.sck then chipHeldHigh tickNs c else chipHeldLow c
  if !pre.sck && post.sck && post.fsm = .high then chipPulse (pre.fsm = .wait) c1
  else if pre.fsm = .low && post.fsm = .idle then chipReadingDone c1
  else c1

/-- One tick of the chip: the sample `d` of the tick, then the edges of SCK. -/
def chipTick (tickNs : Nat) (pre post : Engine) (d : Bool) (v : U24) (c : Chip) : Chip :=
  chipEdges tickNs pre post (chipSampled pre.sck d v c)

/-- An awake chip with SCK LOW of which nothing more is known until the next full valid reading. -/
def chipLeftOpen (c : Chip) : Chip :=
  { c with asleep := false, hold := 0, sel := .unknown, phase := .uncertain, pulses := 0 }

/-- A reset tick drives SCK LOW, so a sleeping chip resumes (R171). A pulse train cut short leaves
everything open (R172, 93 I4). Of a sleep hold cut short R171 says that the chip may or may not have
passed the threshold; that this leaves everything open too, however long the hold was and whether or
not `asleep` is set, is the model's (DESIGN CHOICE, assumption 27). In the other states a ready
conversion survives (assumption 7). The selection of the first conversion after reset is not known
(R184). -/
def chipReset (pre : Engine) (d : Bool) (v : U24) (c : Chip) : Chip :=
  let c1 := chipSampled pre.sck d v c
  if pre.fsm = .high || pre.fsm = .low || pre.fsm = .slpHold then chipLeftOpen c1
  else if c1.asleep then chipResumed c1
  else
    { c1 with
      hold := 0
      sel := .unknown
      pulses := 0
      phase := match c1.phase with
        | .ready w => .ready ⟨w.value, .unknown⟩
        | .converting => .converting
        | .shifting _ => .uncertain
        | .uncertain => .uncertain }

end Sys2Proof.Machine
end

