-- ==== Sys2Proof/Machine/Flags.lean ====
section
/-! DEFINITION. STATUS: the outcome flags, how they are raised and cleared, and the register as the
host reads it (10_state.md R38, 60_exceptions.md R140). The engine has no arithmetic flags (R39). -/

namespace Sys2Proof.Machine

/-- The error conditions (60_exceptions.md R140). -/
inductive ErrorFlag where
  | timeout
  | badGain
  | sleepErr
  | overrun
  | illegal
deriving DecidableEq, Repr

/-- R140: the code of a condition is its STATUS bit number. -/
def errorCode : ErrorFlag → Nat
  | .timeout => 2
  | .badGain => 3
  | .sleepErr => 4
  | .overrun => 5
  | .illegal => 6

/-- R140: set one outcome flag; the others keep their values (R146). -/
def setFlag (x : ErrorFlag) (f : OutcomeFlags) : OutcomeFlags :=
  match x with
  | .timeout => { f with timeout := true }
  | .badGain => { f with badGain := true }
  | .sleepErr => { f with sleepErr := true }
  | .overrun => { f with overrun := true }
  | .illegal => { f with illegal := true }

/-- R140: `raise E`. Nothing else changes, and the engine does not stop. This is the engine's one way
to report an error; it has no trap entry and no return (R149). -/
def raise (x : ErrorFlag) (e : Engine) : Engine := { e with flags := setFlag x e.flags }

/-- R110: acceptance clears `STATUS[6:2]`. -/
def clearFlags (e : Engine) : Engine := { e with flags := OutcomeFlags.clear }

/-- R38: BUSY, STATUS[0], the port `busy` (R23). -/
def busy (e : Engine) : Bool := e.fsm != .idle

/-- R38: the register STATUS, the port `status` (R23), bit 7 first. -/
def statusWord (e : Engine) : Byte :=
  BitVec.ofBool e.doutLast ++ BitVec.ofBool e.flags.illegal ++ BitVec.ofBool e.flags.overrun ++
    BitVec.ofBool e.flags.sleepErr ++ BitVec.ofBool e.flags.badGain ++
    BitVec.ofBool e.flags.timeout ++ BitVec.ofBool e.sleep ++ BitVec.ofBool (busy e)

end Sys2Proof.Machine
end

