-- ==== Sys2Proof/Machine/Operands.lean ====
section
/-! DEFINITION. Operand assembly and the engine's only arithmetic (30_encoding.md R66 to R69, R76;
40_pin_protocol.md R95). -/

namespace Sys2Proof.Machine

/-- R69 (a), R116: the post-amble counts that SETGAIN accepts when it checks. -/
def gainInRange (n : Byte) : Bool := n == 1 || n == 2 || n == 3

/-- R69 (b): a bridge gain byte becomes the core argument `b - 24`, an 8-bit subtraction. -/
def gainByteArg (b : Byte) : Byte := b - 24

/-- R95: 24 bits sign-extended to the 32-bit Conversion Sample. -/
def sext32 (v : U24) : Sample32 := v.signExtend 32

/-- R90: the deserializer's shift, `{SHREG[22:0], d}`. -/
def shiftIn (v : U24) (d : Bool) : U24 := v.extractLsb' 0 23 ++ BitVec.ofBool d

/-- R35: the byte view of SHREG, most significant byte first. -/
def shregBytes (v : U24) : List Byte := [v.extractLsb' 16 8, v.extractLsb' 8 8, v.extractLsb' 0 8]

/-- R76: the response frame BRSP32, in transfer order (big-endian, R53). -/
def responseFrame (r : Sample32) : List Byte :=
  [r.extractLsb' 24 8, r.extractLsb' 16 8, r.extractLsb' 8 8, r.extractLsb' 0 8]

/-- R139, R55: the bytes a read of `len` bytes receives when it is answered in tick `n`: the leading
bytes of the frame, and a free value for each byte beyond the fourth. -/
def responseBytes (r : Sample32) (len n : Nat) : List Byte :=
  (responseFrame r).take len ++ (List.range (len - 4)).map fun i => Config.overReadByte n (4 + i)

/-- R53: how the host rebuilds RESULT from the four bytes. -/
def rebuildResult (b0 b1 b2 b3 : Byte) : Sample32 := b0 ++ b1 ++ b2 ++ b3

/-- The three gain classes (R66). -/
inductive GainClass where
  | g128
  | g32
  | g64
deriving DecidableEq, Repr

/-- The chip's input channels (R66). -/
inductive Channel where
  | a
  | b
deriving DecidableEq, Repr

/-- R66: the post-amble count of a class; which of 2 and 3 is 32 and which 64 is PRESUMED from general
knowledge (93 G1, assumption 20). -/
def classPulses : GainClass → Byte
  | .g128 => 1
  | .g32 => 2
  | .g64 => 3

/-- R66: the channel of a class, PRESUMED from general knowledge (93 G1, assumption 20). -/
def classChannel : GainClass → Channel
  | .g128 => .a
  | .g32 => .b
  | .g64 => .a

/-- R66: the total pulse count of a reading, `T = 24 + N`. -/
def totalPulses (n : Byte) : Nat := 24 + n.toNat

/-- R67: the bridge command byte of a class is its total pulse count. -/
def classByte (g : GainClass) : Byte := BitVec.ofNat 8 (totalPulses (classPulses g))

end Sys2Proof.Machine
end

