-- ==== Sys2Proof/Machine/Ops.lean ====
section
/-! DEFINITION. The operations that every tick goes through: the inputs of the tick, the one sample of
DOUT, the end of a tick for the whole machine, the reset tick, and the legal parameter ranges. -/

namespace Sys2Proof.Machine

/-- R12 to R14, R155: the legal ranges of the parameters. -/
def configLegal (p : Config) : Bool :=
  [ decide (0 < p.tickNs),
    decide (1 ≤ p.tHigh), decide (200 ≤ p.tHigh * p.tickNs), decide (p.tHigh * p.tickNs < 60000),
    decide (1 ≤ p.tLow), decide (200 ≤ p.tLow * p.tickNs), decide (p.tLow * p.tickNs < 60000),
    decide (60000 < p.tSleepHold * p.tickNs),
    decide (1 ≤ p.poll),
    (match p.readyTimeout with
      | none => true
      | some n => decide (1 ≤ n)),
    gainInRange p.gainReset,
    !isGainByte p.cmd.sleep, !isGainByte p.cmd.wake, p.cmd.sleep != p.cmd.wake ].all id

/-- P_READY_TIMEOUT, the readiness bound of the core that the parameters give (R12): the bridge's core
has the bound of R130, whatever the core configuration's parameter is (R45; assumption 15). -/
def readyBound (p : Config) : Option Nat :=
  match p.kind with
  | .core => p.readyTimeout
  | .bridge => some (Config.bridgeTimeout p.tickNs)

/-- What stands on the inputs `i` ticks from now: what the state fixes, or else a free value. -/
def inputAt (s : State) (i : Nat) : TickIn :=
  match s.inputs[i]? with
  | some x => x
  | none => { Config.hostDraw (s.tick + i) with dout := none }

/-- What stands on the inputs in this tick (R20, R24). -/
def input (s : State) : TickIn := inputAt s 0

/-- R83: the last tick of a pulse's HIGH phase (R89, R90; a `C` above `P_T_HIGH`, assumption 16). -/
def atSamplePoint (p : Config) (e : Engine) : Bool :=
  e.sck && decide (e.fsm = .high) && decide (p.tHigh ≤ e.c)

/-- R80: the one sample of DOUT in this tick: the level a DOUT script fixes (R79), or the chip's. -/
def sample (s : State) : Bool :=
  match (input s).dout with
  | some d => d
  | none => chipLevel s.cfg.chipPresent s.core.sck (atSamplePoint s.cfg s.core)
      (Config.doutDraw s.tick) s.chip

/-- R80: `DOUT_LAST <- d`. -/
def latch (d : Bool) (e : Engine) : Engine := { e with doutLast := d }

/-- What the bridge knows as a transaction: one sent to its own address (R52), and no read of 0 bytes
(R139). -/
def forBridge (p : Config) (t : BusTxn) : Bool :=
  t.addr == p.bridgeAddr && !(dirField t.word && t.len == 0)

/-- The transactions the bus holds when `t` arrives (R131; P_BUS, assumption 9): a queue takes any
number; a host that is stretched or refused is still at the one that waits, so no other arrives. -/
def holdMore (p : Config) (held : List BusTxn) (t : BusTxn) : List BusTxn :=
  match p.bus.hold with
  | .queue => held ++ [t]
  | .stretch => if held.isEmpty then [t] else held
  | .nak => if held.isEmpty then [t] else held

/-- The transactions the bus holds for the bridge in this tick, oldest first (R131). -/
def arrivals (s : State) : List BusTxn :=
  match (input s).txn with
  | some t => if forBridge s.cfg t then holdMore s.cfg s.bus.held t else s.bus.held
  | none => s.bus.held

/-- What the bus holds after a tick in which the bridge takes no transaction. -/
def heldAfter (s : State) : List BusTxn :=
  match s.cfg.kind with
  | .core => s.bus.held
  | .bridge => arrivals s

/-- The end of a tick that leaves the engine in `e`: the chip sees the pins, the inputs move on, and
the bridge hands nothing to the bus. -/
def commit (s : State) (e : Engine) : State :=
  { s with
    core := e
    chip := chipTick s.cfg.tickNs s.core e (sample s) (Config.conversionDraw s.tick) s.chip
    bus := { held := heldAfter s, out := .quiet }
    inputs := s.inputs.tail
    tick := s.tick + 1 }

/-- R170: the reset tick, whatever the state and whatever is presented. What happens to transactions
that the bus holds is `P_BUS`, OPEN (assumption 9). -/
def resetTick (s : State) : State :=
  { s with
    core := Engine.reset s.cfg
    chip := chipReset s.core (sample s) (Config.conversionDraw s.tick) s.chip
    bridge := Bridge.reset
    bus := { held := if s.cfg.bus.keepsHeld then heldAfter s else [], out := .quiet }
    inputs := s.inputs.tail
    tick := s.tick + 1 }

end Sys2Proof.Machine
end

