-- ==== Sys2Proof/Machine/PinProtocol.lean ====
section
/-! DEFINITION. One tick of the engine in every FSM state but IDLE (40_pin_protocol.md). Each function
reads the pre-tick registers and gives the post-tick ones (R18); `d` is the tick's sample (R80). -/

namespace Sys2Proof.Machine

/-- R84: a poll happens when POLLC = 0 and finds the chip ready when `d` is LOW. -/
def pollReady (d : Bool) (e : Engine) : Bool := e.pollc == 0 && !d

/-- R86: `P_READY_TIMEOUT ≠ NONE` and `TMO + 1 ≥ P_READY_TIMEOUT`. -/
def timeoutDue (p : Config) (e : Engine) : Bool :=
  match readyBound p with
  | none => false
  | some n => decide (n ≤ e.tmo + 1)

/-- R87 (READ) and R88 (WAITRDY): the poll found the chip ready. -/
def waitReady (e : Engine) : Engine :=
  match e.mode with
  | .rd => { e with shreg := 0, k := 0, c := 1, sck := true, fsm := .high }
  | .rdy => { e with fsm := .idle }

/-- R86: the readiness timeout. -/
def waitTimedOut (e : Engine) : Engine :=
  match e.mode with
  | .rd => raise .timeout { e with result := 0, fsm := .idle }
  | .rdy => raise .timeout { e with fsm := .idle }

/-- R85: the wait goes on. -/
def waitOn (p : Config) (e : Engine) : Engine :=
  match readyBound p with
  | none => { e with pollc := (e.pollc + 1) % p.poll }
  | some _ => { e with pollc := (e.pollc + 1) % p.poll, tmo := e.tmo + 1 }

/-- A WAIT tick (R84 to R88); readiness wins over the timeout (R147). -/
def waitTick (p : Config) (d : Bool) (e : Engine) : Engine :=
  if pollReady d e then waitReady e
  else if timeoutDue p e then waitTimedOut e
  else waitOn p e

/-- A HIGH tick (R89 to R91). A data bit is the sample of the last tick of the phase (R83). -/
def highTick (p : Config) (d : Bool) (e : Engine) : Engine :=
  if e.c < p.tHigh then { e with c := e.c + 1 }
  else if e.k.toNat < 24 then
    { e with shreg := shiftIn e.shreg d, sck := false, c := 1, fsm := .low }
  else { e with sck := false, c := 1, fsm := .low }

/-- A LOW tick (R92 to R95); `K + 1` and `24 + GAIN_N` are compared without overflow (R93). -/
def lowTick (p : Config) (e : Engine) : Engine :=
  if e.c < p.tLow then { e with c := e.c + 1 }
  else if e.k.toNat + 1 < totalPulses e.gainN then
    { e with k := e.k + 1, c := 1, sck := true, fsm := .high }
  else { e with result := sext32 e.shreg, fsm := .idle }

/-- A SLPLOW tick (R98). -/
def slpLowTick (p : Config) (e : Engine) : Engine :=
  if e.c < p.tLow then { e with c := e.c + 1 }
  else { e with sck := true, c := 1, fsm := .slpHold }

/-- A SLPHOLD tick (R99). -/
def slpHoldTick (p : Config) (e : Engine) : Engine :=
  if e.c < p.tSleepHold then { e with c := e.c + 1 }
  else { e with sleep := true, fsm := .idle }

/-- The tick rule of the request in progress; in IDLE nothing moves (R81). -/
def pinTick (p : Config) (d : Bool) (e : Engine) : Engine :=
  match e.fsm with
  | .idle => e
  | .wait => waitTick p d e
  | .high => highTick p d e
  | .low => lowTick p e
  | .slpLow => slpLowTick p e
  | .slpHold => slpHoldTick p e

/-- The engine's tick with no request present (R80, R81). -/
def quietEngine (p : Config) (d : Bool) (e : Engine) : Engine := pinTick p d (latch d e)

/-- The engine's tick with a request present: accepted in IDLE, where the outcome flags are cleared and
then `accept` is applied (R110); else rejected, while the request in progress goes on (R111). -/
def requestEngine (p : Config) (d : Bool) (accept : Engine → Engine) (e : Engine) : Engine :=
  match e.fsm with
  | .idle => accept (clearFlags (latch d e))
  | .wait => raise .overrun (quietEngine p d e)
  | .high => raise .overrun (quietEngine p d e)
  | .low => raise .overrun (quietEngine p d e)
  | .slpLow => raise .overrun (quietEngine p d e)
  | .slpHold => raise .overrun (quietEngine p d e)

/-- The machine's tick in which nothing is presented to the core. -/
def quietTick (s : State) : State := commit s (quietEngine s.cfg (sample s) s.core)

/-- The machine's tick in which a request is presented to the core. -/
def requestTick (s : State) (accept : Engine → Engine) : State :=
  commit s (requestEngine s.cfg (sample s) accept s.core)

end Sys2Proof.Machine
end

