-- ==== Sys2Proof/Machine/CoreRequests.lean ====
section
/-! DEFINITION. The core requests (41_core_requests.md): what acceptance does to the engine, and the
meaning of each request as the tick in which it is presented. -/

namespace Sys2Proof.Machine

/-- R112, R114: WAIT is entered with its counters at 0. -/
def enterWait (m : WaitMode) (e : Engine) : Engine :=
  { e with mode := m, pollc := 0, tmo := 0, fsm := .wait }

/-- READ accepted: R112, or R113 while asleep. -/
def acceptRead (e : Engine) : Engine :=
  if e.sleep then raise .sleepErr { e with result := 0 } else enterWait .rd e

/-- WAITRDY accepted: R114, or R115 while asleep. -/
def acceptWaitrdy (e : Engine) : Engine :=
  if e.sleep then raise .sleepErr e else enterWait .rdy e

/-- SETGAIN accepted: R116 to R118. -/
def acceptSetgain (check : Bool) (n : Byte) (e : Engine) : Engine :=
  if check && !gainInRange n then raise .badGain e else { e with gainN := n }

/-- SLEEP accepted: R119, or R120 while asleep. -/
def acceptSleep (e : Engine) : Engine :=
  if e.sleep then e else { e with sck := false, c := 1, fsm := .slpLow }

/-- WAKE accepted: R121, or R122 while awake. -/
def acceptWake (e : Engine) : Engine :=
  if e.sleep then { e with sck := false, sleep := false } else e

/-- A reserved op accepted: R123. -/
def acceptReserved (e : Engine) : Engine := raise .illegal e

/-- READ (R112, R113; the argument is ignored, R73). -/
def execRead (_arg : Byte) (s : State) : Host.Outcome State Fault Refusal :=
  .next (requestTick s acceptRead)

/-- WAITRDY (R114, R115; the argument is ignored, R73). -/
def execWaitrdy (_arg : Byte) (s : State) : Host.Outcome State Fault Refusal :=
  .next (requestTick s acceptWaitrdy)

/-- SETGAIN (R116 to R118). -/
def execSetgain (n : Byte) (s : State) : Host.Outcome State Fault Refusal :=
  .next (requestTick s (acceptSetgain s.cfg.gainCheck n))

/-- SLEEP (R119, R120; the argument is ignored, R73). -/
def execSleep (_arg : Byte) (s : State) : Host.Outcome State Fault Refusal :=
  .next (requestTick s acceptSleep)

/-- WAKE (R121, R122; the argument is ignored, R73). -/
def execWake (_arg : Byte) (s : State) : Host.Outcome State Fault Refusal :=
  .next (requestTick s acceptWake)

/-- A request with a reserved op (R123; R111 while busy, R146). -/
def reservedTick (s : State) : State := requestTick s acceptReserved

end Sys2Proof.Machine
end

