-- ==== Sys2Proof/Machine/BridgeTransactions.lean ====
section
/-! DEFINITION. The bridge controller (42_bridge.md): its tick in each BFSM state (R131), and the
meaning of each transaction as a B_WAIT tick in which the bridge holds it. -/

namespace Sys2Proof.Machine

/-- R131, B_WAIT: the core is idle, and the bridge completes the write it holds. -/
def completeWrite (t : State) : State :=
  { t with bridge := { t.bridge with bfsm := .bIdle }, bus := { t.bus with out := .writeDone } }

/-- R131, B_WAIT with a write transaction whose command the bridge maps to a core request: with the
core idle it presents the request and completes the write; else it waits. -/
def bridgeWriteTick (s : State) (accept : Engine → Engine) : State :=
  if s.core.fsm = .idle then completeWrite (requestTick s accept) else quietTick s

/-- R137, B_WAIT with a write transaction that is none of the five actions. -/
def ignoredWriteTick (s : State) : State :=
  if s.core.fsm = .idle then completeWrite (quietTick s) else quietTick s

/-- R138, B_WAIT with a read transaction: with the core idle, present READ and go to B_RUN. -/
def bridgeReadTick (s : State) : State :=
  if s.core.fsm = .idle then
    { requestTick s acceptRead with bridge := { s.bridge with bfsm := .bRun } }
  else quietTick s

/-- R131, R138, B_RUN: with the core idle, respond from RESULT and complete the read. -/
def bridgeRunTick (s : State) : State :=
  if s.core.fsm = .idle then
    { quietTick s with
      bridge := { s.bridge with bfsm := .bIdle }
      bus := { held := heldAfter s
               out := .response (responseBytes s.core.result s.bridge.blen s.tick) } }
  else quietTick s

/-- R139, 93 I8: a write transaction carries exactly one byte. -/
def badWriteLength (t : BusTxn) : Bool := !dirField t.word && t.len != 1

/-- R131, B_IDLE: take the oldest transaction the bus holds, if there is one. -/
def bridgeIdleTick (s : State) : Host.Outcome State Fault Refusal :=
  match arrivals s with
  | [] => .next (quietTick s)
  | t :: rest =>
    if badWriteLength t then .refused .busWriteLength
    else .next { quietTick s with
                 bridge := { bfsm := .bWait, btxn := t.word, blen := t.len }
                 bus := { held := rest, out := .quiet } }

/-- BW.GAIN128 (R132): SETGAIN with the argument that byte 0x19 gives (R69). -/
def execBwGain128 (s : State) : Host.Outcome State Fault Refusal :=
  .next (bridgeWriteTick s (acceptSetgain s.cfg.gainCheck (gainByteArg 0x19)))

/-- BW.GAIN32 (R133): SETGAIN with the argument that byte 0x1A gives (R69). -/
def execBwGain32 (s : State) : Host.Outcome State Fault Refusal :=
  .next (bridgeWriteTick s (acceptSetgain s.cfg.gainCheck (gainByteArg 0x1A)))

/-- BW.GAIN64 (R134): SETGAIN with the argument that byte 0x1B gives (R69). -/
def execBwGain64 (s : State) : Host.Outcome State Fault Refusal :=
  .next (bridgeWriteTick s (acceptSetgain s.cfg.gainCheck (gainByteArg 0x1B)))

/-- BW.SLEEP (R135). -/
def execBwSleep (s : State) : Host.Outcome State Fault Refusal :=
  .next (bridgeWriteTick s acceptSleep)

/-- BW.WAKE (R136). -/
def execBwWake (s : State) : Host.Outcome State Fault Refusal :=
  .next (bridgeWriteTick s acceptWake)

/-- BR (R138; `cmd` is ignored, R74). -/
def execBr (_cmd : Byte) (s : State) : Host.Outcome State Fault Refusal :=
  .next (bridgeReadTick s)

end Sys2Proof.Machine
end

