-- ==== Sys2Proof/Machine/Dispatch.lean ====
section
/-! DEFINITION. Every instruction's meaning. For a core request, exec is the tick in which the request is
presented; for a bridge transaction, it is a B_WAIT tick in which the bridge holds the transaction. -/

namespace Sys2Proof.Machine

def exec (i : Instr) (s : State) : Host.Outcome State Fault Refusal :=
  match i with
  | .read arg => Sys2Proof.Machine.execRead arg s
  | .waitrdy arg => Sys2Proof.Machine.execWaitrdy arg s
  | .setgain n => Sys2Proof.Machine.execSetgain n s
  | .sleep arg => Sys2Proof.Machine.execSleep arg s
  | .wake arg => Sys2Proof.Machine.execWake arg s
  | .bwGain128 => Sys2Proof.Machine.execBwGain128 s
  | .bwGain32 => Sys2Proof.Machine.execBwGain32 s
  | .bwGain64 => Sys2Proof.Machine.execBwGain64 s
  | .bwSleep => Sys2Proof.Machine.execBwSleep s
  | .bwWake => Sys2Proof.Machine.execBwWake s
  | .br cmd => Sys2Proof.Machine.execBr cmd s

end Sys2Proof.Machine
end

