-- ==== Sys2Proof/Machine/Fetch.lean ====
section
/-! DEFINITION. Which instruction stands before the machine in a tick, and what a tick does when none
stands there. The engine fetches nothing from a memory (10_state.md R27): a core request is read
from the request port, a bridge transaction from the word the bridge holds. -/

namespace Sys2Proof.Machine

/-- The word that this tick executes, if there is one: the request word (R24) in the core configuration,
the held transaction word in B_WAIT (R131) in the bridge configuration. In a reset tick there is
none (R170), and outside the parameter ranges nothing has a meaning (R155). -/
def fetchWord (s : State) : Option PortWord :=
  if !configLegal s.cfg || (input s).rst then none
  else match s.cfg.kind with
    | .core => (input s).req.map PortWord.req
    | .bridge => match s.bridge.bfsm with
      | .bIdle => none
      | .bWait => some (.btx s.bridge.btxn)
      | .bRun => none

/-- The instruction that this tick executes, if there is one. -/
def fetch (s : State) : Option Instr :=
  (fetchWord s).bind fun w => (decode s.cfg.cmd w).instr?

/-- The tick when no instruction stands before the machine: the refusal of R155, the reset tick (R170),
a reserved op (R123), an idle or waiting core (R81), and the bridge's other ticks (R131, R137). -/
def otherTick (s : State) : Host.Outcome State Fault Refusal :=
  if !configLegal s.cfg then .refused .configOutOfRange
  else if (input s).rst then .next (resetTick s)
  else match s.cfg.kind with
    | .core => match (input s).req with
      | some _ => .next (reservedTick s)
      | none => .next (quietTick s)
    | .bridge => match s.bridge.bfsm with
      | .bIdle => bridgeIdleTick s
      | .bWait => .next (ignoredWriteTick s)
      | .bRun => .next (bridgeRunTick s)

/-- `s` with a request word on the request port, the reset line LOW, in the core configuration. -/
def withRequest (s : State) (w : Req16) : State :=
  { s with
    cfg := { s.cfg with kind := .core }
    inputs := { rst := false, req := some w, txn := none, dout := (input s).dout } :: s.inputs.tail }

/-- `s` in the bridge configuration, with a transaction word held in B_WAIT, the reset line LOW. -/
def withTransaction (s : State) (w : Btx9) : State :=
  { s with
    cfg := if s.cfg.kind = .bridge then s.cfg else s.cfg.asBridge
    bridge := { bfsm := .bWait, btxn := w, blen := if dirField w then 4 else 1 }
    inputs := { rst := false, req := none, txn := none, dout := (input s).dout } :: s.inputs.tail }

/-- `s` with a word of either port placed where the next tick takes its instruction from. -/
def placeWord (s : State) : PortWord → State
  | .req w => withRequest s w
  | .btx w => withTransaction s w

end Sys2Proof.Machine
end

