-- ==== Sys2Proof/Machine/Step.lean ====
section
/-! DEFINITION. The step: one engine tick (00_scope.md R20). -/

namespace Sys2Proof.Machine

/-- One tick of the whole machine. -/
def step (s : State) : Host.Outcome State Fault Refusal :=
  (fetch s).elim (otherTick s) fun i => exec i s

/-- `s` with a word of the opcode table placed so that the next step runs it (assumption 12). -/
def State.withFetchWord (s : State) (nbits w : Nat) : State := placeWord s (tableWord nbits w)

end Sys2Proof.Machine
end

