-- ==== Sys2Proof/Safety.lean ====
section
/-! DEFINITION. The terms the statements use: the invariant of the machine, what a tick does beside the
engine, and what stands on the inputs during a run. -/

namespace Sys2Proof.Machine

/-- 10_state.md R41 for IDLE, and the level of SCK and SLEEP in the other states (R29, R30, R82, R98,
R99). -/
structure ClockLevels (e : Engine) : Prop where
  idle : e.fsm = .idle → e.sck = e.sleep
  awake : e.fsm ≠ .idle → e.sleep = false
  up : e.fsm = .high ∨ e.fsm = .slpHold → e.sck = true
  down : e.fsm = .wait ∨ e.fsm = .low ∨ e.fsm = .slpLow → e.sck = false

/-- R33, R34, R101: the counters stay inside their bounds; K in HIGH and LOW only (R32, assumption 17). -/
structure CounterRanges (p : Config) (e : Engine) : Prop where
  c_pos : 1 ≤ e.c
  c_high : e.fsm = .high → e.c ≤ p.tHigh
  c_low : e.fsm = .low ∨ e.fsm = .slpLow → e.c ≤ p.tLow
  c_hold : e.fsm = .slpHold → e.c ≤ p.tSleepHold
  c_max : e.c ≤ max p.tHigh (max p.tLow p.tSleepHold)
  k_train : e.fsm = .high ∨ e.fsm = .low → e.k.toNat ≤ 23 + e.gainN.toNat
  pollc : e.pollc < p.poll
  tmo : ∀ n, readyBound p = some n → e.tmo < n

/-- R28: with `P_GAIN_CHECK = true`, GAIN_N is 1, 2 or 3. -/
def GainLegal (p : Config) (e : Engine) : Prop := p.gainCheck = true → gainInRange e.gainN = true

/-- R36, R76: RESULT is always a sign-extended 24-bit value. -/
def ResultIsSample (e : Engine) : Prop := e.result = sext32 (e.result.extractLsb' 0 24)

/-- R90, R101: how many bits the reading in progress has captured. -/
def capturedBits (e : Engine) : Nat :=
  match e.fsm with
  | .high => min 24 e.k.toNat
  | .low => min 24 (e.k.toNat + 1)
  | .idle => 24
  | .wait => 24
  | .slpLow => 24
  | .slpHold => 24

/-- R101: the captured bits fill SHREG from below, so none is lost off bit 23. -/
def ShiftBounded (e : Engine) : Prop := e.shreg.toNat < 2 ^ capturedBits e

/-- The chip agent and the engine agree: the chip is asleep when the engine says so (R29, R180), it is
awake during a reading (R155), and it has counted the pulses of the train (R153). -/
structure ChipAgrees (s : State) : Prop where
  low : s.core.sck = false → s.chip.asleep = false ∧ s.chip.hold = 0
  asleep : s.core.sleep = true → s.chip.asleep = true
  hold : s.core.fsm = .slpHold → s.chip.hold = s.core.c
  high : s.core.fsm = .high → s.chip.hold = s.core.c ∧ s.chip.asleep = false
  pulses : s.core.fsm = .high ∨ s.core.fsm = .low → s.chip.pulses = s.core.k.toNat + 1
  train : s.core.fsm = .high ∨ s.core.fsm = .low →
    s.chip.phase = .uncertain ∨ ∃ v, s.chip.phase = .shifting v
  rest : s.core.fsm ≠ .high → s.core.fsm ≠ .low → ∀ v, s.chip.phase ≠ .shifting v

/-- R131, R142: what the bridge never does to its core, and what B_RUN waits for. -/
structure BridgeAgrees (s : State) : Prop where
  absent : s.cfg.kind = .core → s.bridge.bfsm = .bIdle
  overrun : s.cfg.kind = .bridge → s.core.flags.overrun = false
  badGain : s.cfg.kind = .bridge → s.core.flags.badGain = false
  illegal : s.cfg.kind = .bridge → s.core.flags.illegal = false
  reads : s.cfg.kind = .bridge → s.core.fsm = .wait → s.core.mode = .rd
  running : s.bridge.bfsm = .bRun → s.core.fsm ≠ .slpLow ∧ s.core.fsm ≠ .slpHold

/-- The invariant of the machine. -/
structure Inv (s : State) : Prop where
  legal : configLegal s.cfg = true
  clock : ClockLevels s.core
  counters : CounterRanges s.cfg s.core
  gain : GainLegal s.cfg s.core
  result : ResultIsSample s.core
  shift : ShiftBounded s.core
  chip : ChipAgrees s
  bridge : BridgeAgrees s

/-- A tick from `s` to `t`, as far as the engine's own registers are not concerned: the parameters stay,
the chip sees the pins, the inputs move on by one tick. -/
structure Elapsed (s t : State) : Prop where
  cfg : t.cfg = s.cfg
  chip : t.chip =
    chipTick s.cfg.tickNs s.core t.core (sample s) (Config.conversionDraw s.tick) s.chip
  inputs : t.inputs = s.inputs.tail
  tick : t.tick = s.tick + 1

/-- A tick in which the bridge does nothing either: it stays as it is, and hands nothing to the bus. -/
structure ElapsedCore (s t : State) : Prop where
  rest : Elapsed s t
  bridge : t.bridge = s.bridge
  bus : t.bus = { held := heldAfter s, out := .quiet }

/-- No reset in the next `n` ticks. -/
def NoReset (s : State) (n : Nat) : Prop := ∀ i < n, (inputAt s i).rst = false

/-- No DOUT script in the next `n` ticks: the chip agent drives DOUT. -/
def Unscripted (s : State) (n : Nat) : Prop := ∀ i < n, (inputAt s i).dout = none

/-- No write transaction of a refused length (R139) is held, or arrives for the bridge in the next `n`
ticks. -/
structure LegalTraffic (s : State) (n : Nat) : Prop where
  held : ∀ x ∈ s.bus.held, badWriteLength x = false
  arriving : ∀ i < n, ∀ x, (inputAt s i).txn = some x → forBridge s.cfg x = true →
    badWriteLength x = false

/-- The core configuration, or the bridge while it waits for the READ of a bridge read (R138): here no
step takes a transaction from the bus. -/
def ReadRuns (s : State) : Prop := s.cfg.kind = .core ∨ s.bridge.bfsm = .bRun

/-- After `n` steps from `s` the machine is in `t`. -/
def RunsTo (n : Nat) (s t : State) : Prop := Host.Core.run Sys2Proof.core n s = .next t

/-- The number of ticks of one pulse (R82). -/
def pulseTicks (p : Config) : Nat := p.tHigh + p.tLow

/-- The number of ticks of a whole pulse train (R102). -/
def trainTicks (p : Config) (n : Byte) : Nat := totalPulses n * pulseTicks p

/-- Tick `i` of a wait that began with POLLC = 0 is a poll (R84). -/
def pollTick (p : Config) (i : Nat) : Bool := i % p.poll == 0

end Sys2Proof.Machine
end

