-- ==== Sys2Proof/Certificates/Slice0/Obligations.lean ====
section
/-! DEFINITION. The statements for the provers. Each docstring names the rules of spec/ it formalises. -/

open Sys2Proof Sys2Proof.Machine

/-! ### Encoding -/

/-- 30_encoding.md R63, R64, R67, R68, R70, R71: no bit of an instruction is lost in its word. -/
def Obligations.DecodeEncodeRoundTrip : Prop :=
  ∀ (p : CmdBytes) (i : Instr), i.wellFormed p = true → decode p (encode p i) = .instr i

/-- R70, R71: a word that decodes to an instruction is the word of that instruction. -/
def Obligations.EncodeDecodeRoundTrip : Prop :=
  ∀ (p : CmdBytes) (w : PortWord) (i : Instr), decode p w = .instr i → encode p i = w

/-- Words written out from R70, R71, R73 and R77. -/
def Obligations.SpecWordsDecode : Prop :=
  decodeReq 0b0000000100000000 = .instr (.read 0) ∧
  decodeReq 0b0000001000000000 = .instr (.waitrdy 0) ∧
  decodeReq 0b0000001100000011 = .instr (.setgain 3) ∧
  decodeReq 0b0000010010101011 = .instr (.sleep 0xAB) ∧
  decodeReq 0b0000010100000000 = .instr (.wake 0) ∧
  decodeBtx Config.coreDefault.cmd 0b000011001 = .instr .bwGain128 ∧
  decodeBtx Config.coreDefault.cmd 0b000011010 = .instr .bwGain32 ∧
  decodeBtx Config.coreDefault.cmd 0b000011011 = .instr .bwGain64 ∧
  decodeBtx Config.coreDefault.cmd 0b000000001 = .instr .bwSleep ∧
  decodeBtx Config.coreDefault.cmd 0b000000010 = .instr .bwWake ∧
  decodeBtx Config.coreDefault.cmd 0b111111111 = .instr (.br 0xFF)

/-- R70 to R72, R74: the op codes 0x00 and 0x06 to 0xFF, and no others, are rejected by name; so is a
write whose byte is none of the five actions, and no other transaction word. -/
def Obligations.OtherWordsAreRejectedByName : Prop :=
  (∀ w : Req16,
    (decodeReq w = .reservedOp (opField w) ↔ (opField w = 0 ∨ 0x06 ≤ (opField w).toNat)) ∧
    (¬ (opField w = 0 ∨ 0x06 ≤ (opField w).toNat) → ∃ i, decodeReq w = .instr i)) ∧
  (∀ (p : CmdBytes) (w : Btx9),
    (decodeBtx p w = .ignoredWrite (cmdField w) ↔
      (dirField w = false ∧ cmdField w ∉ [0x19, 0x1A, 0x1B, p.sleep, p.wake])) ∧
    (¬ (dirField w = false ∧ cmdField w ∉ [0x19, 0x1A, 0x1B, p.sleep, p.wake]) →
      ∃ i, decodeBtx p w = .instr i))

/-- R66, R67, R69 (b). Which class has 2 pulses and which 3 is general knowledge (assumption 20). -/
def Obligations.GainBytesCarryTheClass : Prop :=
  ∀ (p : CmdBytes) (g : GainClass),
    gainByteArg (classByte g) = classPulses g ∧
    totalPulses (classPulses g) = (classByte g).toNat ∧
    decodeBtx p (mkBtx false (classByte g)) = .instr (match g with
      | .g128 => .bwGain128
      | .g32 => .bwGain32
      | .g64 => .bwGain64)

/-! ### The step and reset -/

/-- R24, R110, R111: in the core configuration a step runs the request on the port. -/
def Obligations.StepRunsTheRequest : Prop :=
  ∀ (s : State) (w : Req16) (i : Instr), configLegal s.cfg = true → s.cfg.kind = .core →
    (input s).rst = false → (input s).req = some w → decodeReq w = .instr i → step s = exec i s

/-- R131: in B_WAIT a step runs the transaction that the bridge holds. -/
def Obligations.StepRunsTheHeldTransaction : Prop :=
  ∀ (s : State) (i : Instr), configLegal s.cfg = true → s.cfg.kind = .bridge →
    (input s).rst = false → s.bridge.bfsm = .bWait → decodeBtx s.cfg.cmd s.bridge.btxn = .instr i →
    step s = exec i s

/-- R140, R149: nothing stops the machine, but for what the spec refuses (R155, R139). -/
def Obligations.StepAnswersANextState : Prop :=
  ∀ s : State, configLegal s.cfg = true →
    (s.cfg.kind = .bridge → s.bridge.bfsm = .bIdle → (input s).rst = false →
      ∀ x, (arrivals s).head? = some x → badWriteLength x = false) →
    ∃ t, step s = .next t

/-- R155, R139, R174 (93 I5, I8): what the model refuses, and under which name. The model's choice are
the refusal of parameters outside R13 and R14 and of every tick under them, a reset tick too
(assumption 18), and that a write is refused in the tick in which the bridge would take it
(assumption 10). -/
def Obligations.RefusalsAreTheSpecs : Prop :=
  ∀ s : State,
    (configLegal s.cfg = false → step s = .refused .configOutOfRange) ∧
    (∀ (x : BusTxn) (rest : List BusTxn), configLegal s.cfg = true → (input s).rst = false →
      s.cfg.kind = .bridge → s.bridge.bfsm = .bIdle → arrivals s = x :: rest →
      dirField x.word = false → x.len ≠ 1 → step s = .refused .busWriteLength)

/-- R46: the reset values of the engine and of BFSM, for every setting of the parameters. -/
def Obligations.ResetValues : Prop :=
  ∀ p : Config,
    let e := (State.resetWith p).core
    e.fsm = .idle ∧ e.mode = .rd ∧ e.sck = false ∧ e.sleep = false ∧ e.gainN = p.gainReset ∧
    e.k = 0 ∧ e.c = 1 ∧ e.pollc = 0 ∧ e.tmo = 0 ∧ e.shreg = 0 ∧ e.result = 0 ∧
    e.doutLast = true ∧ statusWord e = 0x80 ∧ (State.resetWith p).bridge.bfsm = .bIdle ∧
    State.reset.core.gainN = 1

/-- R170, R171: a reset tick, whatever the state and whatever is presented: the reset values, an
abandoned transaction, no response, and a chip that is awake with SCK LOW. That the chip's selection
is then not known is the model's reading of R184 (assumption 7). -/
def Obligations.ResetTick : Prop :=
  ∀ s : State, configLegal s.cfg = true → (input s).rst = true →
    ∃ t, step s = .next t ∧ t.cfg = s.cfg ∧ t.core = (State.resetWith s.cfg).core ∧
      t.bridge.bfsm = .bIdle ∧ t.bus.out = .quiet ∧ t.chip.asleep = false ∧
      t.chip.sel = .unknown ∧ t.inputs = s.inputs.tail ∧ t.tick = s.tick + 1

/-- R81: an idle engine with no request changes nothing but DOUT_LAST. -/
def Obligations.IdleTickOnlySamples : Prop :=
  ∀ s : State, configLegal s.cfg = true → (input s).rst = false → s.cfg.kind = .core →
    (input s).req = none → s.core.fsm = .idle →
    ∃ t, step s = .next t ∧ ElapsedCore s t ∧ t.core = { s.core with doutLast := sample s }

/-! ### Core requests -/

/-- R110, R112: READ accepted awake. -/
def Obligations.ReadAccepted : Prop :=
  ∀ (a : Byte) (s : State), s.core.fsm = .idle → s.core.sleep = false →
    ∃ t, exec (.read a) s = .next t ∧ ElapsedCore s t ∧
      t.core = { s.core with
        doutLast := sample s, flags := OutcomeFlags.clear,
        mode := .rd, pollc := 0, tmo := 0, fsm := .wait }

/-- R113: READ accepted asleep. -/
def Obligations.ReadWhileAsleep : Prop :=
  ∀ (a : Byte) (s : State), s.core.fsm = .idle → s.core.sleep = true →
    ∃ t, exec (.read a) s = .next t ∧ ElapsedCore s t ∧
      t.core = { s.core with
        doutLast := sample s, result := 0,
        flags := { OutcomeFlags.clear with sleepErr := true } } ∧
      t.core.fsm = .idle ∧ (ClockLevels s.core → t.core.sck = true) ∧
      (ChipAgrees s → ClockLevels s.core → t.chip.asleep = true)

/-- R110, R114: WAITRDY accepted awake. -/
def Obligations.WaitrdyAccepted : Prop :=
  ∀ (a : Byte) (s : State), s.core.fsm = .idle → s.core.sleep = false →
    ∃ t, exec (.waitrdy a) s = .next t ∧ ElapsedCore s t ∧
      t.core = { s.core with
        doutLast := sample s, flags := OutcomeFlags.clear,
        mode := .rdy, pollc := 0, tmo := 0, fsm := .wait }

/-- R115: WAITRDY accepted asleep. -/
def Obligations.WaitrdyWhileAsleep : Prop :=
  ∀ (a : Byte) (s : State), s.core.fsm = .idle → s.core.sleep = true →
    ∃ t, exec (.waitrdy a) s = .next t ∧ ElapsedCore s t ∧
      t.core = { s.core with
        doutLast := sample s, flags := { OutcomeFlags.clear with sleepErr := true } } ∧
      t.core.fsm = .idle

/-- R110, R116, R118: SETGAIN with a count that is accepted, awake or asleep. -/
def Obligations.SetgainAccepted : Prop :=
  ∀ (n : Byte) (s : State), s.core.fsm = .idle →
    (s.cfg.gainCheck = true → n = 1 ∨ n = 2 ∨ n = 3) →
    ∃ t, exec (.setgain n) s = .next t ∧ ElapsedCore s t ∧
      t.core = { s.core with doutLast := sample s, flags := OutcomeFlags.clear, gainN := n }

/-- R117: SETGAIN out of range, checked. -/
def Obligations.SetgainOutOfRange : Prop :=
  ∀ (n : Byte) (s : State), s.core.fsm = .idle → s.cfg.gainCheck = true →
    ¬ (n = 1 ∨ n = 2 ∨ n = 3) →
    ∃ t, exec (.setgain n) s = .next t ∧ ElapsedCore s t ∧
      t.core = { s.core with
        doutLast := sample s, flags := { OutcomeFlags.clear with badGain := true } }

/-- R110, R119: SLEEP accepted awake. -/
def Obligations.SleepAccepted : Prop :=
  ∀ (a : Byte) (s : State), s.core.fsm = .idle → s.core.sleep = false →
    ∃ t, exec (.sleep a) s = .next t ∧ ElapsedCore s t ∧
      t.core = { s.core with
        doutLast := sample s, flags := OutcomeFlags.clear, sck := false, c := 1, fsm := .slpLow }

/-- R120: SLEEP accepted asleep: no pin activity, SCK stays HIGH. -/
def Obligations.SleepWhileAsleep : Prop :=
  ∀ (a : Byte) (s : State), s.core.fsm = .idle → s.core.sleep = true →
    ∃ t, exec (.sleep a) s = .next t ∧ ElapsedCore s t ∧
      t.core = { s.core with doutLast := sample s, flags := OutcomeFlags.clear } ∧
      (ClockLevels s.core → t.core.sck = true)

/-- R110, R121: WAKE accepted asleep: SCK goes LOW and the chip resumes, under a selection that is not
known (the model's reading of R184, 93 I6; assumption 7). -/
def Obligations.WakeAccepted : Prop :=
  ∀ (a : Byte) (s : State), s.core.fsm = .idle → s.core.sleep = true →
    ∃ t, exec (.wake a) s = .next t ∧ ElapsedCore s t ∧
      t.core = { s.core with
        doutLast := sample s, flags := OutcomeFlags.clear, sck := false, sleep := false } ∧
      (ChipAgrees s → t.chip.asleep = false ∧ t.chip.sel = .unknown)

/-- R122: WAKE accepted awake: no pin activity, SCK is LOW. -/
def Obligations.WakeWhileAwake : Prop :=
  ∀ (a : Byte) (s : State), s.core.fsm = .idle → s.core.sleep = false →
    ∃ t, exec (.wake a) s = .next t ∧ ElapsedCore s t ∧
      t.core = { s.core with doutLast := sample s, flags := OutcomeFlags.clear } ∧
      (ClockLevels s.core → t.core.sck = false)

/-- R123: a reserved op accepted: ILLEGAL, and nothing else is written. -/
def Obligations.ReservedOpRaisesIllegal : Prop :=
  ∀ (s : State) (w : Req16), configLegal s.cfg = true → (input s).rst = false →
    s.cfg.kind = .core → (input s).req = some w → s.core.fsm = .idle →
    (opField w = 0 ∨ 0x06 ≤ (opField w).toNat) →
    ∃ t, step s = .next t ∧ ElapsedCore s t ∧
      t.core = { s.core with
        doutLast := sample s, flags := { OutcomeFlags.clear with illegal := true } }

/-- R111: every request presented to a busy core, a reserved one too, is dropped with OVERRUN, while
the request in progress takes the very tick it takes with no request present. -/
def Obligations.BusyRequestOverruns : Prop :=
  ∀ s : State, s.core.fsm ≠ .idle →
    (∀ (i : Instr) (a : Byte), i ∈ [.read a, .waitrdy a, .setgain a, .sleep a, .wake a] →
      ∃ t, exec i s = .next t ∧ ElapsedCore s t ∧
        t.core = { (quietTick s).core with
          flags := { (quietTick s).core.flags with overrun := true } }) ∧
    ElapsedCore s (reservedTick s) ∧
    (reservedTick s).core = { (quietTick s).core with
      flags := { (quietTick s).core.flags with overrun := true } }

/-- R73: the argument of READ, WAITRDY, SLEEP and WAKE is ignored. -/
def Obligations.ArgumentIsIgnored : Prop :=
  ∀ (a : Byte) (s : State),
    exec (.read a) s = exec (.read 0) s ∧ exec (.waitrdy a) s = exec (.waitrdy 0) s ∧
    exec (.sleep a) s = exec (.sleep 0) s ∧ exec (.wake a) s = exec (.wake 0) s

/-- R110, R146: the flags after an accepted request are its own: TIMEOUT and OVERRUN are clear, and at
most one of ILLEGAL, SLEEPERR and BADGAIN is set. -/
def Obligations.AcceptanceRaisesAtMostOneFlag : Prop :=
  ∀ (s t : State) (w : Req16), (input s).rst = false → s.cfg.kind = .core →
    (input s).req = some w → s.core.fsm = .idle → step s = .next t →
    t.core.flags.timeout = false ∧ t.core.flags.overrun = false ∧
    (t.core.flags.illegal.toNat + t.core.flags.sleepErr.toNat + t.core.flags.badGain.toNat ≤ 1)

/-! ### Pin protocol: any step that is no reset, with or without a request, in either configuration -/

/-- R38, R140: STATUS bit by bit, as the host reads it, and `raise E`, which sets the bit whose number
is the code of E and no other. R111, R140, R146: in a busy tick the outcome flags change only by
TIMEOUT, which a wait that ran out raises, and by OVERRUN, which a request on the core port raises;
both may be raised at once. -/
def Obligations.BusyTickFlags : Prop :=
  (∀ e : Engine,
    (statusWord e).getLsbD 0 = decide (e.fsm ≠ .idle) ∧ (statusWord e).getLsbD 1 = e.sleep ∧
    (statusWord e).getLsbD 2 = e.flags.timeout ∧ (statusWord e).getLsbD 3 = e.flags.badGain ∧
    (statusWord e).getLsbD 4 = e.flags.sleepErr ∧ (statusWord e).getLsbD 5 = e.flags.overrun ∧
    (statusWord e).getLsbD 6 = e.flags.illegal ∧ (statusWord e).getLsbD 7 = e.doutLast ∧
    ∀ x : ErrorFlag, ∀ n < 8, (statusWord (raise x e)).getLsbD n =
      (decide (n = errorCode x) || (statusWord e).getLsbD n)) ∧
  ∀ s t : State, step s = .next t → (input s).rst = false → s.core.fsm ≠ .idle →
    t.core.flags = { s.core.flags with
      timeout := s.core.flags.timeout || (decide (s.core.fsm = .wait) &&
        !decide (s.core.pollc = 0 ∧ sample s = false) && timeoutDue s.cfg s.core),
      overrun := s.core.flags.overrun ||
        (decide (s.cfg.kind = .core) && (input s).req.isSome) }

/-- R84 to R88, R147: a WAIT tick. -/
def Obligations.WaitTickRules : Prop :=
  ∀ s t : State, step s = .next t → (input s).rst = false → s.core.fsm = .wait →
    (s.core.pollc = 0 ∧ sample s = false → s.core.mode = .rd →
      t.core = { s.core with
        doutLast := sample s, flags := t.core.flags,
        shreg := 0, k := 0, c := 1, sck := true, fsm := .high }) ∧
    (s.core.pollc = 0 ∧ sample s = false → s.core.mode = .rdy →
      t.core = { s.core with doutLast := sample s, flags := t.core.flags, fsm := .idle }) ∧
    (¬ (s.core.pollc = 0 ∧ sample s = false) →
      (∃ n, readyBound s.cfg = some n ∧ n ≤ s.core.tmo + 1) →
      t.core.flags.timeout = true ∧
      t.core = { s.core with
        doutLast := sample s, flags := t.core.flags, fsm := .idle,
        result := if s.core.mode = .rd then 0 else s.core.result }) ∧
    (¬ (s.core.pollc = 0 ∧ sample s = false) →
      ¬ (∃ n, readyBound s.cfg = some n ∧ n ≤ s.core.tmo + 1) →
      t.core = { s.core with
        doutLast := sample s, flags := t.core.flags,
        pollc := (s.core.pollc + 1) % s.cfg.poll,
        tmo := if readyBound s.cfg = none then s.core.tmo else s.core.tmo + 1 })

/-- R83, R89 to R91: a HIGH tick. -/
def Obligations.HighTickRules : Prop :=
  ∀ s t : State, step s = .next t → (input s).rst = false → s.core.fsm = .high →
    (s.core.c < s.cfg.tHigh →
      t.core = { s.core with
        doutLast := sample s, flags := t.core.flags, c := s.core.c + 1 }) ∧
    (s.core.c = s.cfg.tHigh → s.core.k.toNat < 24 →
      t.core = { s.core with
        doutLast := sample s, flags := t.core.flags,
        shreg := s.core.shreg.extractLsb' 0 23 ++ BitVec.ofBool (sample s),
        sck := false, c := 1, fsm := .low }) ∧
    (s.core.c = s.cfg.tHigh → 24 ≤ s.core.k.toNat →
      t.core = { s.core with
        doutLast := sample s, flags := t.core.flags, sck := false, c := 1, fsm := .low })

/-- R92 to R95: a LOW tick. -/
def Obligations.LowTickRules : Prop :=
  ∀ s t : State, step s = .next t → (input s).rst = false → s.core.fsm = .low →
    (s.core.c < s.cfg.tLow →
      t.core = { s.core with
        doutLast := sample s, flags := t.core.flags, c := s.core.c + 1 }) ∧
    (s.core.c = s.cfg.tLow → s.core.k.toNat + 1 < 24 + s.core.gainN.toNat →
      t.core = { s.core with
        doutLast := sample s, flags := t.core.flags,
        k := s.core.k + 1, c := 1, sck := true, fsm := .high }) ∧
    (s.core.c = s.cfg.tLow → 24 + s.core.gainN.toNat ≤ s.core.k.toNat + 1 →
      t.core = { s.core with
        doutLast := sample s, flags := t.core.flags,
        result := s.core.shreg.signExtend 32, fsm := .idle })

/-- R98, R99: the ticks of the sleep transition. -/
def Obligations.SleepTransitionTickRules : Prop :=
  ∀ s t : State, step s = .next t → (input s).rst = false →
    (s.core.fsm = .slpLow → s.core.c < s.cfg.tLow →
      t.core = { s.core with
        doutLast := sample s, flags := t.core.flags, c := s.core.c + 1 }) ∧
    (s.core.fsm = .slpLow → s.cfg.tLow ≤ s.core.c →
      t.core = { s.core with
        doutLast := sample s, flags := t.core.flags, sck := true, c := 1, fsm := .slpHold }) ∧
    (s.core.fsm = .slpHold → s.core.c < s.cfg.tSleepHold →
      t.core = { s.core with
        doutLast := sample s, flags := t.core.flags, c := s.core.c + 1 }) ∧
    (s.core.fsm = .slpHold → s.cfg.tSleepHold ≤ s.core.c →
      t.core = { s.core with
        doutLast := sample s, flags := t.core.flags, sleep := true, fsm := .idle })

/-! ### Arithmetic and byte order -/

/-- R95: the sign extension byte by byte; and the value law that the spec derives from it (R96): its
value, its range, and that it is one to one. -/
def Obligations.SignExtensionLaw : Prop :=
  ∀ v : U24,
    (sext32 v).extractLsb' 24 8 = (if v.getLsbD 23 then 0xFF else 0x00) ∧
    (sext32 v).extractLsb' 16 8 = v.extractLsb' 16 8 ∧
    (sext32 v).extractLsb' 8 8 = v.extractLsb' 8 8 ∧
    (sext32 v).extractLsb' 0 8 = v.extractLsb' 0 8 ∧
    (sext32 v).toInt = (v.toNat : Int) - 2 ^ 24 * (v.getLsbD 23).toNat ∧
    -8388608 ≤ (sext32 v).toInt ∧ (sext32 v).toInt ≤ 8388607 ∧
    (∀ u : U24, (sext32 u).toInt = (sext32 v).toInt → u = v) ∧
    (∀ z : Int, -8388608 ≤ z → z ≤ 8388607 → ∃ u : U24, (sext32 u).toInt = z)

/-- R53: the response is big-endian, and the host rebuilds RESULT from it. -/
def Obligations.ResponseIsBigEndian : Prop :=
  ∀ r : Sample32, ∃ b0 b1 b2 b3 : Byte, responseFrame r = [b0, b1, b2, b3] ∧
    b0 = r.extractLsb' 24 8 ∧ b1 = r.extractLsb' 16 8 ∧ b2 = r.extractLsb' 8 8 ∧
    b3 = r.extractLsb' 0 8 ∧ rebuildResult b0 b1 b2 b3 = r

/-- The spec's own inference in R76: byte0 of a response is 0x00 or 0xFF, eight copies of bit 7 of
byte1, in every state whose RESULT was written by the engine. -/
def Obligations.ResponseTopByteIsSign : Prop :=
  ∀ s : State, ResultIsSample s.core →
    s.core.result.extractLsb' 24 8 =
      if (s.core.result.extractLsb' 16 8).getLsbD 7 then 0xFF else 0x00

/-! ### Bridge -/

/-- R132 to R134, R131: the gain writes, with the core idle. -/
def Obligations.BridgeGainWrites : Prop :=
  ∀ (i : Instr) (n : Byte) (s : State),
    (i, n) ∈ [(.bwGain128, 1), (.bwGain32, 2), (.bwGain64, 3)] → s.core.fsm = .idle →
    ∃ t, exec i s = .next t ∧ Elapsed s t ∧
      t.core = { s.core with doutLast := sample s, flags := OutcomeFlags.clear, gainN := n } ∧
      t.bridge = { s.bridge with bfsm := .bIdle } ∧
      t.bus = { held := heldAfter s, out := .writeDone }

/-- R135, R131: BW.SLEEP with the core idle, awake or asleep. -/
def Obligations.BridgeSleepWrite : Prop :=
  ∀ s : State, s.core.fsm = .idle →
    ∃ t, exec .bwSleep s = .next t ∧ Elapsed s t ∧
      t.core = (if s.core.sleep then
          { s.core with doutLast := sample s, flags := OutcomeFlags.clear }
        else { s.core with
          doutLast := sample s, flags := OutcomeFlags.clear,
          sck := false, c := 1, fsm := .slpLow }) ∧
      t.bridge = { s.bridge with bfsm := .bIdle } ∧
      t.bus = { held := heldAfter s, out := .writeDone }

/-- R136, R131: BW.WAKE with the core idle, asleep or awake. -/
def Obligations.BridgeWakeWrite : Prop :=
  ∀ s : State, s.core.fsm = .idle →
    ∃ t, exec .bwWake s = .next t ∧ Elapsed s t ∧
      t.core = (if s.core.sleep then
          { s.core with
            doutLast := sample s, flags := OutcomeFlags.clear, sck := false, sleep := false }
        else { s.core with doutLast := sample s, flags := OutcomeFlags.clear }) ∧
      t.bridge = { s.bridge with bfsm := .bIdle } ∧
      t.bus = { held := heldAfter s, out := .writeDone }

/-- R138, R131, R112, R113: BR in B_WAIT with the core idle presents READ and goes to B_RUN. -/
def Obligations.BridgeReadPresentsRead : Prop :=
  ∀ (c : Byte) (s : State), s.core.fsm = .idle →
    ∃ t, exec (.br c) s = .next t ∧ Elapsed s t ∧
      t.core = (if s.core.sleep then
          { s.core with
            doutLast := sample s, result := 0,
            flags := { OutcomeFlags.clear with sleepErr := true } }
        else { s.core with
          doutLast := sample s, flags := OutcomeFlags.clear,
          mode := .rd, pollc := 0, tmo := 0, fsm := .wait }) ∧
      t.bridge = { s.bridge with bfsm := .bRun } ∧
      t.bus = { held := heldAfter s, out := .quiet }

/-- R131: in B_WAIT with a busy core the transaction waits, and the core's request goes on. -/
def Obligations.HeldTransactionWaits : Prop :=
  ∀ (i : Instr) (c : Byte) (s : State),
    i ∈ [.bwGain128, .bwGain32, .bwGain64, .bwSleep, .bwWake, .br c] → s.core.fsm ≠ .idle →
    ∃ t, exec i s = .next t ∧ ElapsedCore s t ∧ t.core = (quietTick s).core

/-- R138, R139: in B_RUN with the core idle the bridge answers with the leading bytes of RESULT, and
with free values beyond the fourth (assumption 10), and completes the read. -/
def Obligations.BridgeReadResponds : Prop :=
  ∀ s : State, configLegal s.cfg = true → (input s).rst = false → s.cfg.kind = .bridge →
    s.bridge.bfsm = .bRun → s.core.fsm = .idle →
    ∃ t bytes, step s = .next t ∧ Elapsed s t ∧
      t.core = { s.core with doutLast := sample s } ∧
      t.bridge = { s.bridge with bfsm := .bIdle } ∧
      t.bus = { held := heldAfter s, out := .response bytes } ∧
      bytes.length = s.bridge.blen ∧
      bytes.take 4 = (responseFrame s.core.result).take s.bridge.blen

/-- R137: a write that is none of the five actions completes with no core request presented. -/
def Obligations.IgnoredWriteChangesNothing : Prop :=
  ∀ s : State, configLegal s.cfg = true → (input s).rst = false → s.cfg.kind = .bridge →
    s.bridge.bfsm = .bWait → dirField s.bridge.btxn = false →
    cmdField s.bridge.btxn ∉ [0x19, 0x1A, 0x1B, s.cfg.cmd.sleep, s.cfg.cmd.wake] →
    s.core.fsm = .idle →
    ∃ t, step s = .next t ∧ Elapsed s t ∧
      t.core = { s.core with doutLast := sample s } ∧
      t.bridge = { s.bridge with bfsm := .bIdle } ∧
      t.bus = { held := heldAfter s, out := .writeDone }

/-- R131: in B_IDLE the bridge takes the oldest transaction the bus holds, and the others stay held in
their order; with none held it stays in B_IDLE; in the other states it takes none, and with a busy
core it stays as it is and hands nothing to the bus. A transaction that arrives for the bridge is
held: alone where none waits, and, where some do, behind them all in a queue, while with stretching or
NAK the host is still at the one that waits. R139, R52: a read of 0 bytes and a transaction to another
address start nothing. That the bus holds transactions as a list, and in these ways, is the model's
choice, `P_BUS` being OPEN (assumption 9). -/
def Obligations.BridgeTakesOldestTransaction : Prop :=
  ∀ s : State, configLegal s.cfg = true → (input s).rst = false → s.cfg.kind = .bridge →
    (∀ (x : BusTxn) (rest : List BusTxn), s.bridge.bfsm = .bIdle → arrivals s = x :: rest →
      badWriteLength x = false →
      ∃ t, step s = .next t ∧ Elapsed s t ∧ t.core = (quietTick s).core ∧
        t.bridge = { bfsm := .bWait, btxn := x.word, blen := x.len } ∧
        t.bus = { held := rest, out := .quiet }) ∧
    (s.bridge.bfsm = .bIdle → arrivals s = [] →
      ∃ t, step s = .next t ∧ ElapsedCore s t ∧ t.core = (quietTick s).core ∧
        t.bridge.bfsm = .bIdle ∧ t.bus = { held := [], out := .quiet }) ∧
    (s.bridge.bfsm ≠ .bIdle → s.core.fsm ≠ .idle →
      ∃ t, step s = .next t ∧ ElapsedCore s t ∧ t.core = (quietTick s).core ∧
        t.bridge = s.bridge ∧ t.bus = { held := arrivals s, out := .quiet }) ∧
    (∀ t, s.bridge.bfsm ≠ .bIdle → step s = .next t →
      t.bus.held = arrivals s ∧ t.bridge.btxn = s.bridge.btxn ∧ t.bridge.blen = s.bridge.blen) ∧
    ((input s).txn = none → arrivals s = s.bus.held) ∧
    (∀ x, (input s).txn = some x →
      (dirField x.word = true ∧ x.len = 0) ∨ x.addr ≠ s.cfg.bridgeAddr →
      arrivals s = s.bus.held) ∧
    (∀ x, (input s).txn = some x → dirField x.word = false ∨ x.len ≠ 0 →
      x.addr = s.cfg.bridgeAddr →
      arrivals s = if s.bus.held = [] then [x]
        else if s.cfg.bus.hold = .queue then s.bus.held ++ [x] else s.bus.held)

/-- R130, R132 to R136, R138: the bridge's core does what the core configuration's does with the
request that the transaction stands for (R116, R119, R121, R112). -/
def Obligations.BridgeDrivesTheSameCore : Prop :=
  ∀ (i j : Instr) (c : Byte) (s : State),
    (i, j) ∈ [(.bwGain128, .setgain 1), (.bwGain32, .setgain 2), (.bwGain64, .setgain 3),
      (.bwSleep, .sleep 0), (.bwWake, .wake 0), (.br c, .read 0)] →
    s.core.fsm = .idle →
    ∃ t u, exec i s = .next t ∧ exec j s = .next u ∧ t.core = u.core ∧ t.chip = u.chip

/-! ### Chip contract -/

/-- R150, R151, R152, R156: what the chip drives where no DOUT script fixes the sample; on the HIGH
phases of a reading that is fixed at the sample point of R83, in the last tick, and open in the ticks
before it (91 N6), on the 25th pulse too (the model's choice, assumption 28). That it keeps DOUT LOW
until the shift begins is general knowledge (93 G3; assumption 4). -/
def Obligations.ChipDrivesDout : Prop :=
  ∀ s : State, (input s).dout = none →
    (s.cfg.chipPresent = false → sample s = true) ∧
    (∀ v, s.cfg.chipPresent = true → s.chip.asleep = false → s.chip.phase = .ready v →
      s.core.sck = false → sample s = false) ∧
    (∀ v, s.cfg.chipPresent = true → s.chip.asleep = false → s.chip.phase = .shifting v →
      s.core.sck = true → s.core.fsm = .high → s.cfg.tHigh ≤ s.core.c →
      1 ≤ s.chip.pulses → s.chip.pulses ≤ 24 →
      sample s = v.value.getLsbD (24 - s.chip.pulses)) ∧
    (∀ v, s.cfg.chipPresent = true → s.chip.asleep = false → s.chip.phase = .shifting v →
      s.core.sck = true → s.core.fsm = .high → s.cfg.tHigh ≤ s.core.c →
      s.chip.pulses = 25 → sample s = true) ∧
    (∀ v, s.cfg.chipPresent = true → s.chip.asleep = false → s.chip.phase = .shifting v →
      s.core.sck = true → s.core.fsm = .high → s.core.c < s.cfg.tHigh →
      sample s = Config.doutDraw s.tick)

/-- R150, R153, R176: a conversion that becomes ready was made under the selection the chip holds; it
stays ready until the shift begins, in that same tick or a later one, and the shift is of that very
conversion (the chip agent of
assumption 4, with the general knowledge of 93 G3). -/
def Obligations.ConversionKeepsItsSelection : Prop :=
  ∀ s t : State, Inv s → step s = .next t → (input s).rst = false →
    (s.chip.phase = .converting → s.core.sck = false → sample s = false → t.core.fsm ≠ .high →
      ∃ v, t.chip.phase = .ready ⟨v, s.chip.sel⟩) ∧
    (s.chip.phase = .converting → s.core.sck = false → sample s = false → t.core.fsm = .high →
      ∃ v, t.chip.phase = .shifting ⟨v, s.chip.sel⟩ ∧ t.chip.pulses = 1) ∧
    (∀ v, s.chip.phase = .ready v → s.core.sck = false → t.core.fsm ≠ .high →
      t.chip.phase = .ready v) ∧
    (∀ v, s.chip.phase = .ready v → s.core.sck = false → t.core.fsm = .high →
      t.chip.phase = .shifting v ∧ t.chip.pulses = 1)

/-- R153, R176: the last tick of a reading programs the chip with GAIN_N, when that is 1, 2 or 3; with
any other count the selection is not known (93 I1; the chip agent of assumptions 4 and
26). -/
def Obligations.ReadingProgramsTheChip : Prop :=
  ∀ s t : State, Inv s → step s = .next t → (input s).rst = false → s.core.fsm = .low →
    t.core.fsm = .idle →
    (1 ≤ s.core.gainN.toNat → s.core.gainN.toNat ≤ 3 →
      t.chip.sel = .programmed s.core.gainN.toNat ∧ t.chip.phase = .converting) ∧
    (¬ (1 ≤ s.core.gainN.toNat ∧ s.core.gainN.toNat ≤ 3) →
      t.chip.sel = .unknown ∧ t.chip.phase = .uncertain)

/-- R153, R171, R176, R184: the chip's selection changes only at the end of a reading, at WAKE, or at
reset; in particular no SETGAIN changes it (the chip agent of assumptions 4, 7 and
26). -/
def Obligations.SelectionChangesOnlyBySck : Prop :=
  ∀ s t : State, Inv s → step s = .next t → t.chip.sel ≠ s.chip.sel →
    (input s).rst = true ∨ (s.core.fsm = .low ∧ t.core.fsm = .idle) ∨
      (s.core.sleep = true ∧ t.core.sleep = false)

/-! ### Invariants -/

/-- R28, R32 to R34, R36, R41, R76, R101, R131, R142, R155, R180: every step keeps the invariant. K is
bounded in HIGH and LOW only (assumption 17), and the chip agent is that of assumptions 4, 5 and 26. -/
def Obligations.StepKeepsTheInvariant : Prop :=
  ∀ s t : State, Inv s → step s = .next t → Inv t

/-- R46, R171: the reset state meets the invariant, under all legal parameters. Its clauses on the chip
rest on the model's choice of the chip's state after reset: SCK HIGH for 0 ticks, no shift in progress
(assumption 6). -/
def Obligations.ResetMeetsTheInvariant : Prop :=
  ∀ p : Config, configLegal p = true → Inv (State.resetWith p)

/-- The spec's own inference R41: SCK = SLEEP in IDLE, in every state a step leads to. -/
def Obligations.IdleClockShowsSleep : Prop :=
  ∀ s t : State, ClockLevels s.core → step s = .next t → ClockLevels t.core ∧
    (t.core.fsm = .idle → t.core.sck = t.core.sleep)

/-- The spec's own inference R42: while busy, GAIN_N and SLEEP do not change, but for the end of the
sleep hold. -/
def Obligations.BusyKeepsGainAndSleep : Prop :=
  ∀ s t : State, step s = .next t → (input s).rst = false → s.core.fsm ≠ .idle →
    t.core.gainN = s.core.gainN ∧
    (t.core.sleep ≠ s.core.sleep → s.core.fsm = .slpHold ∧ t.core.fsm = .idle ∧
      t.core.sleep = true)

/-- R30, and the spec's own inference R100: SCK rises only at the start of a pulse or of the sleep
hold, and falls only at the end of a pulse's HIGH phase, at WAKE, or at reset. -/
def Obligations.ClockEdges : Prop :=
  ∀ s t : State, Inv s → step s = .next t → t.core.sck ≠ s.core.sck →
    (t.core.sck = true →
      (s.core.fsm = .wait ∧ t.core.fsm = .high) ∨ (s.core.fsm = .low ∧ t.core.fsm = .high) ∨
      (s.core.fsm = .slpLow ∧ t.core.fsm = .slpHold)) ∧
    (t.core.sck = false →
      (input s).rst = true ∨ (s.core.fsm = .high ∧ t.core.fsm = .low) ∨
      (s.core.fsm = .idle ∧ s.core.sleep = true ∧ t.core.sleep = false))

/-- R36: what writes RESULT: Done, a READ timeout, a READ refused while asleep, and reset. -/
def Obligations.ResultWriters : Prop :=
  ∀ s t : State, step s = .next t → t.core.result ≠ s.core.result →
    ((input s).rst = true ∧ t.core.result = 0) ∨
    (s.core.fsm = .low ∧ t.core.fsm = .idle ∧ t.core.result = sext32 s.core.shreg) ∨
    (s.core.fsm = .wait ∧ s.core.mode = .rd ∧ t.core.flags.timeout = true ∧ t.core.result = 0) ∨
    (s.core.fsm = .idle ∧ s.core.sleep = true ∧ t.core.flags.sleepErr = true ∧ t.core.result = 0)

/-! ### Runs: in the core configuration, or in the bridge while it waits for its READ (B_RUN) -/

/-- R82, R130, and the spec's own inference R97: from the tick after the poll that found the chip
ready, SCK shows `24 + GAIN_N` pulses of P_T_HIGH ticks HIGH and P_T_LOW ticks LOW, whatever else is
presented. -/
def Obligations.PulseTrainShape : Prop :=
  ∀ (s : State) (i : Nat), Inv s → ReadRuns s → s.core.fsm = .high → s.core.k = 0 →
    s.core.c = 1 → i < trainTicks s.cfg s.core.gainN → NoReset s i →
    ∃ u, RunsTo i s u ∧ busy u.core = true ∧ u.bridge = s.bridge ∧
      u.core.sck = decide (i % pulseTicks s.cfg < s.cfg.tHigh)

/-- R83, R90, R94, R95, R130, and the spec's own inferences R54 and R102: the train ends after
`(24 + GAIN_N)(P_T_HIGH + P_T_LOW)` ticks, with RESULT the sign-extended value whose bit `23 - j` is
the sample of the last HIGH tick of pulse `j`. -/
def Obligations.PulseTrainDeliversTheSamples : Prop :=
  ∀ s : State, Inv s → ReadRuns s → s.core.fsm = .high → s.core.k = 0 → s.core.c = 1 →
    NoReset s (trainTicks s.cfg s.core.gainN) →
    ∃ t v, RunsTo (trainTicks s.cfg s.core.gainN) s t ∧ t.core.fsm = .idle ∧
      t.core.sck = false ∧ t.core.gainN = s.core.gainN ∧ t.core.result = sext32 v ∧
      t.bridge = s.bridge ∧
      ∀ j < 24, ∃ u, RunsTo (j * pulseTicks s.cfg + (s.cfg.tHigh - 1)) s u ∧
        v.getLsbD (23 - j) = sample u

/-- R151, R153, R176: with the chip driving DOUT, the train delivers the conversion that the chip
shifts out, and programs the next conversion with GAIN_N (the chip agent of assumptions 4 and 26:
no legal LOW phase is a protocol reset). -/
def Obligations.ReadingDeliversTheConversion : Prop :=
  ∀ (s : State) (v : Conversion), Inv s → ReadRuns s → s.cfg.chipPresent = true →
    s.core.fsm = .high → s.core.k = 0 → s.core.c = 1 → s.chip.phase = .shifting v →
    NoReset s (trainTicks s.cfg s.core.gainN) → Unscripted s (trainTicks s.cfg s.core.gainN) →
    ∃ t, RunsTo (trainTicks s.cfg s.core.gainN) s t ∧ t.core.fsm = .idle ∧
      t.core.result = sext32 v.value ∧
      (1 ≤ s.core.gainN.toNat → s.core.gainN.toNat ≤ 3 →
        t.chip.sel = .programmed s.core.gainN.toNat ∧ t.chip.phase = .converting)

/-- The spec's own inference R187, with R130 and R138: a READ accepted in a tick, the host's own or the
one that BR presents, whose `w`-th WAIT tick is the first successful poll, completes
`w + (24 + GAIN_N)(P_T_HIGH + P_T_LOW)` ticks later and is busy until then. -/
def Obligations.ReadDuration : Prop :=
  ∀ (op : Instr) (a : Byte) (s : State) (w : Nat), Inv s →
    (s.cfg.kind = .core ∧ op = .read a) ∨
      (s.cfg.kind = .bridge ∧ s.bridge.bfsm = .bWait ∧ op = .br a) →
    s.core.fsm = .idle → s.core.sleep = false → 1 ≤ w → pollTick s.cfg (w - 1) = true →
    (∀ n, readyBound s.cfg = some n → w ≤ n) →
    NoReset s (1 + w + trainTicks s.cfg s.core.gainN) →
    ∃ t0, exec op s = .next t0 ∧
      ((∀ i < w - 1, ∀ u, RunsTo i t0 u → pollTick s.cfg i = true → sample u = true) →
       (∀ u, RunsTo (w - 1) t0 u → sample u = false) →
       (∀ i < w + trainTicks s.cfg s.core.gainN, ∃ u, RunsTo i t0 u ∧ busy u.core = true) ∧
       ∃ t, RunsTo (w + trainTicks s.cfg s.core.gainN) t0 t ∧ busy t.core = false ∧
         t.core.flags.timeout = false ∧ t.bridge = t0.bridge)

/-- R119, R135, R180: a SLEEP accepted awake, the host's own or the one that BW.SLEEP presents, completes
`P_T_LOW + P_T_SLEEP_HOLD` ticks later; SCK is LOW for P_T_LOW ticks and HIGH from then on (the spec's
own inference R189); at its end the chip is asleep (the threshold is assumption 5). In the bridge
configuration no write of a length that R139 refuses may arrive meanwhile. -/
def Obligations.SleepDuration : Prop :=
  ∀ (op : Instr) (a : Byte) (s : State), Inv s →
    (s.cfg.kind = .core ∧ op = .sleep a) ∨
      (s.cfg.kind = .bridge ∧ s.bridge.bfsm = .bWait ∧ op = .bwSleep ∧
        LegalTraffic s (1 + s.cfg.tLow + s.cfg.tSleepHold)) →
    s.core.fsm = .idle → s.core.sleep = false → NoReset s (1 + s.cfg.tLow + s.cfg.tSleepHold) →
    ∃ t0 t, exec op s = .next t0 ∧ RunsTo (s.cfg.tLow + s.cfg.tSleepHold) t0 t ∧
      t.core.fsm = .idle ∧ t.core.sleep = true ∧ t.core.sck = true ∧ t.chip.asleep = true ∧
      ∀ i < s.cfg.tLow + s.cfg.tSleepHold, ∃ u, RunsTo i t0 u ∧ busy u.core = true ∧
        u.core.sleep = false ∧ u.core.sck = decide (s.cfg.tLow ≤ i)

/-- R86, R141, R130, and the spec's own inference R187: a wait whose polls all find DOUT HIGH times out
after exactly P_READY_TIMEOUT ticks, with no SCK edge; in the bridge that is 100 ms, rounded up to
whole ticks. -/
def Obligations.WaitTimesOutExactly : Prop :=
  ∀ (s : State) (n : Nat), Inv s → ReadRuns s → readyBound s.cfg = some n →
    s.core.fsm = .wait → s.core.pollc = 0 → s.core.tmo = 0 → NoReset s n →
    (∀ i < n, ∀ u, RunsTo i s u → pollTick s.cfg i = true → sample u = true) →
    (s.cfg.kind = .bridge →
      100000000 ≤ n * s.cfg.tickNs ∧ n * s.cfg.tickNs < 100000000 + s.cfg.tickNs) ∧
    ∃ t, RunsTo n s t ∧ t.core.fsm = .idle ∧ t.core.sck = false ∧
      t.core.flags.timeout = true ∧ t.bridge = s.bridge ∧
      t.core.result = (if s.core.mode = .rd then 0 else s.core.result) ∧
      ∀ i < n, ∃ u, RunsTo i s u ∧ u.core.fsm = .wait ∧ u.core.sck = false

/-- R85, and the spec's own inference R183 (93 I11): with no bound (so in the core configuration), a wait
whose polls all find DOUT HIGH goes on, for any number of ticks. -/
def Obligations.UnboundedWaitGoesOn : Prop :=
  ∀ (s : State) (n : Nat), Inv s → readyBound s.cfg = none →
    s.core.fsm = .wait → s.core.pollc = 0 → NoReset s n →
    (∀ i < n, ∀ u, RunsTo i s u → pollTick s.cfg i = true → sample u = true) →
    s.cfg.kind = .core ∧
    ∃ t, RunsTo n s t ∧ t.core.fsm = .wait ∧ t.core.sck = false ∧
      t.core.result = s.core.result
end

