-- ==== Sys2Proof/Laws/Decode.lean ====
section
/-! SUPPORT. The fields of a word that is put together from fields, and back (30_encoding.md R63, R64). -/

namespace Sys2Proof

@[simp] theorem opField_mkReq (op arg : Byte) : opField (mkReq op arg) = op := by
  apply BitVec.eq_of_toNat_eq
  simp only [opField, mkReq, BitVec.extractLsb'_toNat, BitVec.toNat_append]
  rw [Nat.shiftLeft_eq, Nat.mul_comm _ (2 ^ 8), ← Nat.two_pow_add_eq_or_of_lt arg.isLt,
    Nat.shiftRight_eq_div_pow]
  omega

@[simp] theorem argField_mkReq (op arg : Byte) : argField (mkReq op arg) = arg := by
  apply BitVec.eq_of_toNat_eq
  simp only [argField, mkReq, BitVec.extractLsb'_toNat, BitVec.toNat_append]
  rw [Nat.shiftLeft_eq, Nat.mul_comm _ (2 ^ 8), ← Nat.two_pow_add_eq_or_of_lt arg.isLt,
    Nat.shiftRight_eq_div_pow]
  omega

theorem mkReq_fields (w : Req16) : mkReq (opField w) (argField w) = w := by
  apply BitVec.eq_of_toNat_eq
  simp only [opField, argField, mkReq, BitVec.extractLsb'_toNat, BitVec.toNat_append]
  rw [Nat.shiftLeft_eq, Nat.shiftRight_zero, Nat.mul_comm _ (2 ^ 8),
    ← Nat.two_pow_add_eq_or_of_lt (Nat.mod_lt _ (by decide)), Nat.shiftRight_eq_div_pow]
  omega

@[simp] theorem dirField_mkBtx (dir : Bool) (cmd : Byte) : dirField (mkBtx dir cmd) = dir := by
  simp only [dirField, mkBtx, BitVec.getLsbD_append]
  simp

@[simp] theorem cmdField_mkBtx (dir : Bool) (cmd : Byte) : cmdField (mkBtx dir cmd) = cmd := by
  apply BitVec.eq_of_toNat_eq
  simp only [cmdField, mkBtx, BitVec.extractLsb'_toNat, BitVec.toNat_append]
  rw [Nat.shiftLeft_eq, Nat.mul_comm _ (2 ^ 8), ← Nat.two_pow_add_eq_or_of_lt cmd.isLt,
    Nat.shiftRight_eq_div_pow]
  omega

theorem mkBtx_fields (w : Btx9) : mkBtx (dirField w) (cmdField w) = w := by
  apply BitVec.eq_of_getLsbD_eq
  intro i hi
  simp only [dirField, cmdField, mkBtx, BitVec.getLsbD_append, BitVec.getLsbD_extractLsb']
  by_cases h : i < 8
  · simp [h]
  · have : i = 8 := by omega
    subst this
    simp

end Sys2Proof
end

