-- ==== Sys2Proof/Laws/State.lean ====
section
/-! SUPPORT. One lemma per field for each named update of the engine and of the state, so that no
later proof unfolds a record update. -/

namespace Sys2Proof.Machine

section Registers
variable (d : Bool) (x : ErrorFlag) (e : Engine)
@[simp] theorem latch_gainN : (latch d e).gainN = e.gainN := rfl
@[simp] theorem latch_sleep : (latch d e).sleep = e.sleep := rfl
@[simp] theorem latch_sck : (latch d e).sck = e.sck := rfl
@[simp] theorem latch_fsm : (latch d e).fsm = e.fsm := rfl
@[simp] theorem latch_mode : (latch d e).mode = e.mode := rfl
@[simp] theorem latch_k : (latch d e).k = e.k := rfl
@[simp] theorem latch_c : (latch d e).c = e.c := rfl
@[simp] theorem latch_pollc : (latch d e).pollc = e.pollc := rfl
@[simp] theorem latch_tmo : (latch d e).tmo = e.tmo := rfl
@[simp] theorem latch_shreg : (latch d e).shreg = e.shreg := rfl
@[simp] theorem latch_result : (latch d e).result = e.result := rfl
@[simp] theorem latch_doutLast : (latch d e).doutLast = d := rfl
@[simp] theorem latch_flags : (latch d e).flags = e.flags := rfl

@[simp] theorem clearFlags_gainN : (clearFlags e).gainN = e.gainN := rfl
@[simp] theorem clearFlags_sleep : (clearFlags e).sleep = e.sleep := rfl
@[simp] theorem clearFlags_sck : (clearFlags e).sck = e.sck := rfl
@[simp] theorem clearFlags_fsm : (clearFlags e).fsm = e.fsm := rfl
@[simp] theorem clearFlags_mode : (clearFlags e).mode = e.mode := rfl
@[simp] theorem clearFlags_k : (clearFlags e).k = e.k := rfl
@[simp] theorem clearFlags_c : (clearFlags e).c = e.c := rfl
@[simp] theorem clearFlags_pollc : (clearFlags e).pollc = e.pollc := rfl
@[simp] theorem clearFlags_tmo : (clearFlags e).tmo = e.tmo := rfl
@[simp] theorem clearFlags_shreg : (clearFlags e).shreg = e.shreg := rfl
@[simp] theorem clearFlags_result : (clearFlags e).result = e.result := rfl
@[simp] theorem clearFlags_doutLast : (clearFlags e).doutLast = e.doutLast := rfl
@[simp] theorem clearFlags_flags : (clearFlags e).flags = OutcomeFlags.clear := rfl

@[simp] theorem raise_gainN : (raise x e).gainN = e.gainN := rfl
@[simp] theorem raise_sleep : (raise x e).sleep = e.sleep := rfl
@[simp] theorem raise_sck : (raise x e).sck = e.sck := rfl
@[simp] theorem raise_fsm : (raise x e).fsm = e.fsm := rfl
@[simp] theorem raise_mode : (raise x e).mode = e.mode := rfl
@[simp] theorem raise_k : (raise x e).k = e.k := rfl
@[simp] theorem raise_c : (raise x e).c = e.c := rfl
@[simp] theorem raise_pollc : (raise x e).pollc = e.pollc := rfl
@[simp] theorem raise_tmo : (raise x e).tmo = e.tmo := rfl
@[simp] theorem raise_shreg : (raise x e).shreg = e.shreg := rfl
@[simp] theorem raise_result : (raise x e).result = e.result := rfl
@[simp] theorem raise_doutLast : (raise x e).doutLast = e.doutLast := rfl
@[simp] theorem raise_flags : (raise x e).flags = setFlag x e.flags := rfl

end Registers

section Ticks
variable (s : State) (e : Engine)
@[simp] theorem commit_cfg : (commit s e).cfg = s.cfg := rfl
@[simp] theorem commit_core : (commit s e).core = e := rfl
@[simp] theorem commit_chip :
    (commit s e).chip = chipTick s.cfg.tickNs s.core e (sample s) (Config.conversionDraw s.tick) s.chip := rfl
@[simp] theorem commit_bridge : (commit s e).bridge = s.bridge := rfl
@[simp] theorem commit_bus :
    (commit s e).bus = { held := heldAfter s, out := .quiet } := rfl
@[simp] theorem commit_inputs : (commit s e).inputs = s.inputs.tail := rfl
@[simp] theorem commit_tick : (commit s e).tick = s.tick + 1 := rfl

@[simp] theorem resetTick_cfg :
    (resetTick s).cfg = s.cfg := rfl
@[simp] theorem resetTick_core :
    (resetTick s).core = Engine.reset s.cfg := rfl
@[simp] theorem resetTick_chip :
    (resetTick s).chip = chipReset s.core (sample s) (Config.conversionDraw s.tick) s.chip := rfl
@[simp] theorem resetTick_bridge :
    (resetTick s).bridge = Bridge.reset := rfl
@[simp] theorem resetTick_inputs :
    (resetTick s).inputs = s.inputs.tail := rfl
@[simp] theorem resetTick_tick :
    (resetTick s).tick = s.tick + 1 := rfl

@[simp] theorem completeWrite_cfg : (completeWrite s).cfg = s.cfg := rfl
@[simp] theorem completeWrite_core : (completeWrite s).core = s.core := rfl
@[simp] theorem completeWrite_chip : (completeWrite s).chip = s.chip := rfl
@[simp] theorem completeWrite_bridge : (completeWrite s).bridge = { s.bridge with bfsm := .bIdle } := rfl
@[simp] theorem completeWrite_bus : (completeWrite s).bus = { s.bus with out := .writeDone } := rfl
@[simp] theorem completeWrite_inputs : (completeWrite s).inputs = s.inputs := rfl
@[simp] theorem completeWrite_tick : (completeWrite s).tick = s.tick := rfl

end Ticks

/-- The inputs of the tick after a committed one are the next tick's. -/
theorem inputAt_of_tail {s t : State} (hi : t.inputs = s.inputs.tail) (ht : t.tick = s.tick + 1)
    (i : Nat) : inputAt t i = inputAt s (i + 1) := by
  unfold inputAt
  rw [hi, ht, List.getElem?_tail]
  cases s.inputs[i + 1]? with
  | some x => rfl
  | none => simp only [Nat.add_assoc, Nat.add_comm 1 i]

end Sys2Proof.Machine
end

