-- ==== Sys2Proof/Laws/Ops.lean ====
section
/-! SUPPORT. What each shared operation can do, said once: a request's tick, a quiet tick, and the step. -/

namespace Sys2Proof.Machine

/-- What the core does with a request that is accepted (R112 to R123), for every request word there is. -/
inductive Accepted (p : Config) : (Engine → Engine) → Prop where
  | read : Accepted p acceptRead
  | waitrdy : Accepted p acceptWaitrdy
  | setgain (n : Byte) : Accepted p (acceptSetgain p.gainCheck n)
  | sleep : Accepted p acceptSleep
  | wake : Accepted p acceptWake
  | reserved : Accepted p acceptReserved

theorem requestEngine_of_idle {p : Config} {d : Bool} {f : Engine → Engine} {e : Engine}
    (h : e.fsm = .idle) : requestEngine p d f e = f (clearFlags (latch d e)) := by
  simp only [requestEngine, h]

theorem requestEngine_of_busy {p : Config} {d : Bool} {f : Engine → Engine} {e : Engine}
    (h : e.fsm ≠ .idle) : requestEngine p d f e = raise .overrun (quietEngine p d e) := by
  unfold requestEngine
  cases hf : e.fsm with
  | idle => exact absurd hf h
  | wait => rfl
  | high => rfl
  | low => rfl
  | slpLow => rfl
  | slpHold => rfl

theorem quietEngine_of_idle {p : Config} {d : Bool} {e : Engine} (h : e.fsm = .idle) :
    quietEngine p d e = latch d e := by
  simp only [quietEngine, pinTick, latch_fsm, h]

/-- Which engine tick a step makes, apart from a reset: quiet, or with one request presented. In the
bridge configuration a request is presented in B_WAIT and to an idle core only (R131). -/
inductive EngineStep (s : State) : Engine → Prop where
  | quiet : EngineStep s (quietEngine s.cfg (sample s) s.core)
  | request (f : Engine → Engine) (hf : Accepted s.cfg f) (hk : s.cfg.kind = .core) :
      EngineStep s (requestEngine s.cfg (sample s) f s.core)
  | presented (f : Engine → Engine) (hk : s.cfg.kind = .bridge) (hb : s.bridge.bfsm = .bWait)
      (hi : s.core.fsm = .idle) (hf : f = acceptRead ∨ f = acceptSleep ∨ f = acceptWake ∨
        ∃ n, gainInRange n = true ∧ f = acceptSetgain s.cfg.gainCheck n) :
      EngineStep s (f (clearFlags (latch (sample s) s.core)))

/-- What a step without reset does to the bridge controller (R131). -/
inductive BridgeStep (s t : State) : Prop where
  | stays (h : t.bridge = s.bridge) : BridgeStep s t
  | takes (hk : s.cfg.kind = .bridge) (h : t.bridge.bfsm = .bWait) : BridgeStep s t
  | completes (hk : s.cfg.kind = .bridge) (h : t.bridge = { s.bridge with bfsm := .bIdle }) :
      BridgeStep s t
  | presents (hk : s.cfg.kind = .bridge) (h : t.bridge = { s.bridge with bfsm := .bRun })
      (hc : t.core = acceptRead (clearFlags (latch (sample s) s.core)))
      (hi : s.core.fsm = .idle) : BridgeStep s t

/-- A step that is not a reset tick: one engine tick, seen by the chip. -/
structure Ticked (s t : State) : Prop where
  legal : configLegal s.cfg = true
  rest : Elapsed s t
  engine : EngineStep s t.core
  bridge : BridgeStep s t

theorem elapsed_commit (s : State) (e : Engine) : Elapsed s (commit s e) := ⟨rfl, rfl, rfl, rfl⟩

theorem ticked_quiet {s : State} (hl : configLegal s.cfg = true) : Ticked s (quietTick s) :=
  ⟨hl, elapsed_commit _ _, .quiet, .stays rfl⟩

theorem ticked_request {s : State} {f : Engine → Engine} (hl : configLegal s.cfg = true)
    (hk : s.cfg.kind = .core) (hf : Accepted s.cfg f) : Ticked s (requestTick s f) :=
  ⟨hl, elapsed_commit _ _, .request f hf hk, .stays rfl⟩

theorem ticked_bridgeWrite {s : State} {f : Engine → Engine} (hl : configLegal s.cfg = true)
    (hk : s.cfg.kind = .bridge) (hb : s.bridge.bfsm = .bWait)
    (hf : f = acceptRead ∨ f = acceptSleep ∨ f = acceptWake ∨
      ∃ n, gainInRange n = true ∧ f = acceptSetgain s.cfg.gainCheck n) :
    Ticked s (bridgeWriteTick s f) := by
  unfold bridgeWriteTick
  split
  · next hi =>
    refine ⟨hl, ⟨rfl, rfl, rfl, rfl⟩, ?_, .completes hk rfl⟩
    have := EngineStep.presented f hk hb hi hf
    rwa [← requestEngine_of_idle (p := s.cfg) (d := sample s) (f := f) hi] at this
  · exact ticked_quiet hl

theorem ticked_bridgeRead {s : State} (hl : configLegal s.cfg = true) (hk : s.cfg.kind = .bridge)
    (hb : s.bridge.bfsm = .bWait) : Ticked s (bridgeReadTick s) := by
  unfold bridgeReadTick
  split
  · next hi =>
    have hc : (requestTick s acceptRead).core = acceptRead (clearFlags (latch (sample s) s.core)) :=
      requestEngine_of_idle hi
    refine ⟨hl, ⟨rfl, rfl, rfl, rfl⟩, ?_, .presents hk rfl hc hi⟩
    exact hc ▸ EngineStep.presented acceptRead hk hb hi (.inl rfl)
  · exact ticked_quiet hl

theorem ticked_ignoredWrite {s : State} (hl : configLegal s.cfg = true)
    (hk : s.cfg.kind = .bridge) : Ticked s (ignoredWriteTick s) := by
  unfold ignoredWriteTick
  split
  · exact ⟨hl, ⟨rfl, rfl, rfl, rfl⟩, .quiet, .completes hk rfl⟩
  · exact ticked_quiet hl

theorem ticked_bridgeRun {s : State} (hl : configLegal s.cfg = true) (hk : s.cfg.kind = .bridge) :
    Ticked s (bridgeRunTick s) := by
  unfold bridgeRunTick
  split
  · exact ⟨hl, ⟨rfl, rfl, rfl, rfl⟩, .quiet, .completes hk rfl⟩
  · exact ticked_quiet hl

theorem ticked_bridgeIdle {s t : State} (hl : configLegal s.cfg = true) (hk : s.cfg.kind = .bridge)
    (h : bridgeIdleTick s = .next t) : Ticked s t := by
  unfold bridgeIdleTick at h
  split at h
  · cases h; exact ticked_quiet hl
  · split at h
    · cases h
    · cases h; exact ⟨hl, ⟨rfl, rfl, rfl, rfl⟩, .quiet, .takes hk rfl⟩

/-- Each decoded request word is one of the accepted forms, and is run in the core configuration. -/
theorem ticked_exec_req {s t : State} {w : Req16} {i : Instr} (hl : configLegal s.cfg = true)
    (hk : s.cfg.kind = .core) (hd : decodeReq w = .instr i) (h : exec i s = .next t) :
    Ticked s t := by
  unfold decodeReq at hd
  split at hd
  · cases hd; cases h; exact ticked_request hl hk .read
  split at hd
  · cases hd; cases h; exact ticked_request hl hk .waitrdy
  split at hd
  · cases hd; cases h; exact ticked_request hl hk (.setgain _)
  split at hd
  · cases hd; cases h; exact ticked_request hl hk .sleep
  split at hd
  · cases hd; cases h; exact ticked_request hl hk .wake
  · cases hd

/-- Each decoded transaction is run in the bridge configuration, in B_WAIT. -/
theorem ticked_exec_btx {s t : State} {w : Btx9} {i : Instr} (hl : configLegal s.cfg = true)
    (hk : s.cfg.kind = .bridge) (hb : s.bridge.bfsm = .bWait)
    (hd : decodeBtx s.cfg.cmd w = .instr i) (h : exec i s = .next t) : Ticked s t := by
  unfold decodeBtx at hd
  split at hd
  · cases hd; cases h; exact ticked_bridgeRead hl hk hb
  split at hd
  · cases hd; cases h; exact ticked_bridgeWrite hl hk hb (.inr (.inr (.inr ⟨_, by decide, rfl⟩)))
  split at hd
  · cases hd; cases h; exact ticked_bridgeWrite hl hk hb (.inr (.inr (.inr ⟨_, by decide, rfl⟩)))
  split at hd
  · cases hd; cases h; exact ticked_bridgeWrite hl hk hb (.inr (.inr (.inr ⟨_, by decide, rfl⟩)))
  split at hd
  · cases hd; cases h; exact ticked_bridgeWrite hl hk hb (.inr (.inl rfl))
  split at hd
  · cases hd; cases h; exact ticked_bridgeWrite hl hk hb (.inr (.inr (.inl rfl)))
  · cases hd

/-- A step runs the instruction that stands before the machine. -/
theorem step_of_fetch {s : State} {i : Instr} (h : fetch s = some i) : step s = exec i s := by
  rw [step, h, Option.elim_some]

/-- A step with no instruction before the machine. -/
theorem step_of_no_fetch {s : State} (h : fetch s = none) : step s = otherTick s := by
  rw [step, h, Option.elim_none]

theorem ticked_of_fetch {s t : State} {i : Instr} (hf : fetch s = some i) (h : exec i s = .next t) :
    Ticked s t ∧ (input s).rst = false := by
  unfold fetch fetchWord at hf
  by_cases hlr : (!configLegal s.cfg || (input s).rst) = true
  · rw [if_pos hlr] at hf; cases hf
  rw [if_neg hlr] at hf
  simp only [Bool.or_eq_true, Bool.not_eq_true', not_or, Bool.not_eq_false, Bool.not_eq_true] at hlr
  refine ⟨?_, hlr.2⟩
  cases hk : s.cfg.kind with
  | core =>
    simp only [hk] at hf
    cases hr : (input s).req with
    | none => simp [hr] at hf
    | some w =>
      simp only [hr, Option.map_some, Option.bind_some, decode] at hf
      cases hd : decodeReq w with
      | instr j =>
        simp only [hd, Decoded.instr?, Option.some.injEq] at hf
        subst hf
        exact ticked_exec_req hlr.1 hk hd h
      | reservedOp op => simp [hd, Decoded.instr?] at hf
      | ignoredWrite c => simp [hd, Decoded.instr?] at hf
  | bridge =>
    simp only [hk] at hf
    cases hb : s.bridge.bfsm with
    | bIdle => simp [hb] at hf
    | bRun => simp [hb] at hf
    | bWait =>
      simp only [hb, Option.bind_some, decode] at hf
      cases hd : decodeBtx s.cfg.cmd s.bridge.btxn with
      | instr j =>
        simp only [hd, Decoded.instr?, Option.some.injEq] at hf
        subst hf
        exact ticked_exec_btx hlr.1 hk hb hd h
      | reservedOp op => simp [hd, Decoded.instr?] at hf
      | ignoredWrite c => simp [hd, Decoded.instr?] at hf

/-- Everything a step can do when it answers a next state: a reset tick, or one engine tick. -/
theorem step_cases {s t : State} (h : step s = .next t) :
    ((input s).rst = true ∧ configLegal s.cfg = true ∧ t = resetTick s) ∨
      ((input s).rst = false ∧ Ticked s t) := by
  cases hf : fetch s with
  | some i =>
    rw [step_of_fetch hf] at h
    exact .inr ((ticked_of_fetch hf h).symm)
  | none =>
    rw [step_of_no_fetch hf] at h
    unfold otherTick at h
    cases hl : configLegal s.cfg with
    | false => simp [hl] at h
    | true =>
      simp only [hl, Bool.not_true, Bool.false_eq_true, if_false] at h
      cases hr : (input s).rst with
      | true =>
        simp only [hr, if_true] at h
        cases h
        exact .inl ⟨rfl, rfl, rfl⟩
      | false =>
        simp only [hr, Bool.false_eq_true, if_false] at h
        refine .inr ⟨rfl, ?_⟩
        cases hk : s.cfg.kind with
        | core =>
          simp only [hk] at h
          cases hq : (input s).req with
          | none => simp only [hq] at h; cases h; exact ticked_quiet hl
          | some w => simp only [hq] at h; cases h; exact ticked_request hl hk .reserved
        | bridge =>
          simp only [hk] at h
          cases hb : s.bridge.bfsm with
          | bIdle => simp only [hb] at h; exact ticked_bridgeIdle hl hk h
          | bWait => simp only [hb] at h; cases h; exact ticked_ignoredWrite hl hk
          | bRun => simp only [hb] at h; cases h; exact ticked_bridgeRun hl hk

/-- The sample point of a pulse (R83). -/
@[simp] theorem atSamplePoint_iff {p : Config} {e : Engine} :
    atSamplePoint p e = true ↔ e.sck = true ∧ e.fsm = .high ∧ p.tHigh ≤ e.c := by
  simp [atSamplePoint, and_assoc]

/-- R130: the bridge's bound is at least 100 ms, and by less than a tick. -/
theorem bridgeTimeout_bounds {t : Nat} (h : 0 < t) :
    100000000 ≤ Config.bridgeTimeout t * t ∧ Config.bridgeTimeout t * t < 100000000 + t := by
  unfold Config.bridgeTimeout
  have h1 := Nat.div_add_mod (100000000 + (t - 1)) t
  have h2 := Nat.mod_lt (100000000 + (t - 1)) h
  rw [Nat.mul_comm] at h1
  omega

/-- Legal parameters give a bound of at least one tick. -/
theorem readyBound_pos {p : Config} (h : configLegal p = true) {n : Nat}
    (hn : readyBound p = some n) : 1 ≤ n := by
  simp only [configLegal, List.all_cons, List.all_nil, id, Bool.and_eq_true, decide_eq_true_eq] at h
  obtain ⟨a, _, _, _, _, _, _, _, _, k, _⟩ := h
  unfold readyBound at hn
  cases hk : p.kind with
  | core =>
    simp only [hk] at hn
    simpa [hn] using k
  | bridge =>
    simp only [hk, Option.some.injEq] at hn
    have hb := (bridgeTimeout_bounds a).1
    rw [hn] at hb
    rcases Nat.eq_zero_or_pos n with h0 | h0
    · rw [h0] at hb; simp at hb
    · exact h0

/-- A transaction that is for the bridge, and what the bus then holds (R131). -/
theorem mem_arrivals {s : State} {x : BusTxn} (h : x ∈ arrivals s) :
    x ∈ s.bus.held ∨ ((input s).txn = some x ∧ forBridge s.cfg x = true) := by
  unfold arrivals at h
  cases ht : (input s).txn with
  | none => simp only [ht] at h; exact .inl h
  | some t =>
    simp only [ht] at h
    split at h
    · next hb =>
      have one : x ∈ [t] → some t = some x ∧ forBridge s.cfg x = true := by
        intro hx
        rw [List.mem_singleton.1 hx]
        exact ⟨rfl, hb⟩
      unfold holdMore at h
      split at h
      · exact (List.mem_append.1 h).imp id one
      all_goals
        split at h
        · exact .inr (one h)
        · exact .inl h
    · exact .inl h

/-- What legal parameters give (R12, R13). -/
theorem configLegal_ranges {p : Config} (h : configLegal p = true) :
    0 < p.tickNs ∧ 1 ≤ p.tHigh ∧ p.tHigh * p.tickNs < 60000 ∧ 1 ≤ p.tLow ∧
      60000 < p.tSleepHold * p.tickNs ∧ 1 ≤ p.poll ∧
      (∀ n, readyBound p = some n → 1 ≤ n) ∧ gainInRange p.gainReset = true := by
  have hb : ∀ n, readyBound p = some n → 1 ≤ n := fun n hn => readyBound_pos h hn
  simp only [configLegal, List.all_cons, List.all_nil, id, Bool.and_eq_true, decide_eq_true_eq] at h
  obtain ⟨a, b, _, d, e, _, _, i, j, _, l, _⟩ := h
  exact ⟨a, b, d, e, i, j, hb, l⟩

/-- The sleep hold is not empty. -/
theorem configLegal_hold {p : Config} (h : configLegal p = true) : 1 ≤ p.tSleepHold := by
  obtain ⟨_, _, _, _, hh, _⟩ := configLegal_ranges h
  rcases Nat.eq_zero_or_pos p.tSleepHold with h0 | h0
  · rw [h0] at hh; simp at hh
  · exact h0

/-- Each request word that decodes is accepted in one of the forms of R112 to R122. -/
theorem exec_of_decodeReq {s : State} {w : Req16} {i : Instr} (hd : decodeReq w = .instr i) :
    ∃ f, Accepted s.cfg f ∧ exec i s = .next (requestTick s f) := by
  unfold decodeReq at hd
  split at hd
  · cases hd; exact ⟨_, .read, rfl⟩
  split at hd
  · cases hd; exact ⟨_, .waitrdy, rfl⟩
  split at hd
  · cases hd; exact ⟨_, .setgain _, rfl⟩
  split at hd
  · cases hd; exact ⟨_, .sleep, rfl⟩
  split at hd
  · cases hd; exact ⟨_, .wake, rfl⟩
  · cases hd

/-- A step in the core configuration, without reset: the quiet tick, or the tick of the request that
stands on the port. -/
theorem step_core {s : State} (hl : configLegal s.cfg = true) (hk : s.cfg.kind = .core)
    (hr : (input s).rst = false) :
    ((input s).req = none ∧ step s = .next (quietTick s)) ∨
      (∃ w f, (input s).req = some w ∧ Accepted s.cfg f ∧ step s = .next (requestTick s f)) := by
  cases hq : (input s).req with
  | none =>
    refine .inl ⟨rfl, ?_⟩
    have hn : fetch s = none := by simp [fetch, fetchWord, hl, hr, hk, hq]
    rw [step_of_no_fetch hn]
    simp [otherTick, hl, hr, hk, hq]
  | some w =>
    refine .inr ?_
    cases hd : decodeReq w with
    | instr i =>
      have hn : fetch s = some i := by
        simp [fetch, fetchWord, hl, hr, hk, hq, decode, hd, Decoded.instr?]
      rw [step_of_fetch hn]
      obtain ⟨f, hf, he⟩ := exec_of_decodeReq (s := s) hd
      exact ⟨w, f, rfl, hf, he⟩
    | reservedOp o =>
      have hn : fetch s = none := by
        simp [fetch, fetchWord, hl, hr, hk, hq, decode, hd, Decoded.instr?]
      rw [step_of_no_fetch hn]
      exact ⟨w, _, rfl, .reserved, by simp [otherTick, hl, hr, hk, hq, reservedTick]⟩
    | ignoredWrite c =>
      unfold decodeReq at hd
      repeat' (split at hd; · cases hd)
      cases hd

/-- No step changes the parameters (R44), and each moves the inputs on by one tick. -/
theorem step_inputs {s t : State} (h : step s = .next t) :
    t.cfg = s.cfg ∧ t.inputs = s.inputs.tail ∧ t.tick = s.tick + 1 := by
  rcases step_cases h with ⟨_, _, rfl⟩ | ⟨_, ht⟩
  · exact ⟨rfl, rfl, rfl⟩
  · exact ⟨ht.rest.cfg, ht.rest.inputs, ht.rest.tick⟩

theorem runsTo_zero {s t : State} : RunsTo 0 s t ↔ t = s := by
  constructor
  · intro h; cases h; rfl
  · rintro rfl; rfl

/-- A run is a step and the rest of the run. -/
theorem runsTo_succ {n : Nat} {s t : State} :
    RunsTo (n + 1) s t ↔ ∃ u, step s = .next u ∧ RunsTo n u t := by
  have hc : Sys2Proof.core.step s = step s := rfl
  unfold RunsTo
  refine Iff.trans (Eq.to_iff (congrArg (· = _) (Host.Core.run.eq_2 Sys2Proof.core s n))) ?_
  rw [hc]
  cases step s with
  | next u => exact ⟨fun h => ⟨u, rfl, h⟩, fun ⟨_, hu, h⟩ => (by cases hu; exact h)⟩
  | fault r => exact ⟨fun h => (by cases h), fun ⟨_, hu, _⟩ => (by cases hu)⟩
  | refused r => exact ⟨fun h => (by cases h), fun ⟨_, hu, _⟩ => (by cases hu)⟩

theorem runsTo_inputs {n : Nat} {s t : State} (h : RunsTo n s t) :
    t.cfg = s.cfg ∧ ∀ i, inputAt t i = inputAt s (n + i) := by
  induction n generalizing s with
  | zero => rw [runsTo_zero] at h; subst h; simp
  | succ n ih =>
    obtain ⟨u, hs, hu⟩ := runsTo_succ.1 h
    obtain ⟨hc, hi, ht⟩ := step_inputs hs
    obtain ⟨hc', hi'⟩ := ih hu
    refine ⟨hc'.trans hc, fun i => ?_⟩
    rw [hi', inputAt_of_tail hi ht]
    congr 1
    omega

end Sys2Proof.Machine
end

