-- ==== Sys2Proof/Laws/PerInstr.lean ====
section
/-! SUPPORT. Per instruction: its word, at the default command bytes, is its row of
spec/opcode_table.json. -/

namespace Sys2Proof.Laws

/-- A row of the table: the match and the mask of a word of one of the two formats. -/
inductive Row where
  | req (val mask : Req16)
  | btx (val mask : Btx9)
deriving DecidableEq, Repr

/-- The row as the table has it (masks 0xFF00 for REQ16, 0x1FF for a write, 0x100 for BR). -/
def tableRow : Instr → Row
  | .read _ => .req 0x0100 0xFF00
  | .waitrdy _ => .req 0x0200 0xFF00
  | .setgain _ => .req 0x0300 0xFF00
  | .sleep _ => .req 0x0400 0xFF00
  | .wake _ => .req 0x0500 0xFF00
  | .bwGain128 => .btx 0x019 0x1FF
  | .bwGain32 => .btx 0x01A 0x1FF
  | .bwGain64 => .btx 0x01B 0x1FF
  | .bwSleep => .btx 0x001 0x1FF
  | .bwWake => .btx 0x002 0x1FF
  | .br _ => .btx 0x100 0x100

/-- A word belongs to a row: same format, and the match under the mask. -/
def Row.has : Row → PortWord → Prop
  | .req val mask, .req w => w &&& mask = val
  | .btx val mask, .btx w => w &&& mask = val
  | .req _ _, .btx _ => False
  | .btx _ _, .req _ => False

/-- The encoder puts an instruction's word into its own row of the table. -/
def TableRow.Statement (i : Instr) : Prop := (tableRow i).has (encode Config.coreDefault.cmd i)

theorem mkReq_and (op arg : Byte) : mkReq op arg &&& 0xFF00 = mkReq op 0 := by
  have h := BitVec.and_append (x₁ := op) (x₂ := 0xFF#8) (y₁ := arg) (y₂ := 0x00#8)
  rw [BitVec.and_zero, show (0xFF#8) = BitVec.allOnes 8 from rfl, BitVec.and_allOnes] at h
  exact h

theorem mkBtx_and (dir : Bool) (cmd : Byte) : mkBtx dir cmd &&& 0x100 = mkBtx dir 0 := by
  have h := BitVec.and_append (x₁ := BitVec.ofBool dir) (x₂ := 1#1) (y₁ := cmd) (y₂ := 0x00#8)
  rw [BitVec.and_zero, show (1#1) = BitVec.allOnes 1 from rfl, BitVec.and_allOnes] at h
  exact h

theorem TableRow.read (arg : Byte) : TableRow.Statement (.read arg) := mkReq_and 0x01 arg
theorem TableRow.waitrdy (arg : Byte) : TableRow.Statement (.waitrdy arg) := mkReq_and 0x02 arg
theorem TableRow.setgain (n : Byte) : TableRow.Statement (.setgain n) := mkReq_and 0x03 n
theorem TableRow.sleep (arg : Byte) : TableRow.Statement (.sleep arg) := mkReq_and 0x04 arg
theorem TableRow.wake (arg : Byte) : TableRow.Statement (.wake arg) := mkReq_and 0x05 arg
theorem TableRow.bwGain128 : TableRow.Statement .bwGain128 := by
  unfold TableRow.Statement; exact (by decide : mkBtx false 0x19 &&& 0x1FF = 0x019)
theorem TableRow.bwGain32 : TableRow.Statement .bwGain32 := by
  unfold TableRow.Statement; exact (by decide : mkBtx false 0x1A &&& 0x1FF = 0x01A)
theorem TableRow.bwGain64 : TableRow.Statement .bwGain64 := by
  unfold TableRow.Statement; exact (by decide : mkBtx false 0x1B &&& 0x1FF = 0x01B)
theorem TableRow.bwSleep : TableRow.Statement .bwSleep := by
  unfold TableRow.Statement; exact (by decide : mkBtx false 0x01 &&& 0x1FF = 0x001)
theorem TableRow.bwWake : TableRow.Statement .bwWake := by
  unfold TableRow.Statement; exact (by decide : mkBtx false 0x02 &&& 0x1FF = 0x002)
theorem TableRow.br (cmd : Byte) : TableRow.Statement (.br cmd) := mkBtx_and true cmd

end Sys2Proof.Laws
end

