-- ==== Sys2Proof/Tests/Slice0.lean ====
section
/-! SUPPORT. The model's own tests. Expected values are from spec/95_test_vectors.md (E1 to E7, V1 to
V9) and from the examples in the rules; each comment names the source. The second half gives, for each
statement with hypotheses, a state and operands that meet them. -/

namespace Sys2Proof.Tests

open Sys2Proof Sys2Proof.Machine

/-! ### Words written out from R63, R64, R70, R71, R77 -/

def defaultCmd : CmdBytes := Config.coreDefault.cmd

theorem test_word_read : decodeReq 0b00000001_00000000 = .instr (.read 0) := by decide
theorem test_word_waitrdy : decodeReq 0b00000010_00000000 = .instr (.waitrdy 0) := by decide
theorem test_word_setgain : decodeReq 0b00000011_11111111 = .instr (.setgain 255) := by decide
theorem test_word_sleep : decodeReq 0b00000100_10101011 = .instr (.sleep 0xAB) := by decide
theorem test_word_wake : decodeReq 0b00000101_00000000 = .instr (.wake 0) := by decide
theorem test_word_bwGain128 : decodeBtx defaultCmd 0b0_0001_1001 = .instr .bwGain128 := by decide
theorem test_word_bwGain32 : decodeBtx defaultCmd 0b0_0001_1010 = .instr .bwGain32 := by decide
theorem test_word_bwGain64 : decodeBtx defaultCmd 0b0_0001_1011 = .instr .bwGain64 := by decide
theorem test_word_bwSleep : decodeBtx defaultCmd 0b0_0000_0001 = .instr .bwSleep := by decide
theorem test_word_bwWake : decodeBtx defaultCmd 0b0_0000_0010 = .instr .bwWake := by decide
theorem test_word_br : decodeBtx defaultCmd 0b1_0000_0000 = .instr (.br 0) := by decide
/-- V7: the reserved words 0x0000, 0x0600 and 0xFF03. -/
theorem test_word_reserved : decodeReq 0x0000 = .reservedOp 0 ∧ decodeReq 0x0600 = .reservedOp 6 ∧
    decodeReq 0xFF03 = .reservedOp 0xFF := by decide
/-- V8: the ignored writes 0x018, 0x01C and 0x000. -/
theorem test_word_ignored : decodeBtx defaultCmd 0x018 = .ignoredWrite 0x18 ∧
    decodeBtx defaultCmd 0x01C = .ignoredWrite 0x1C ∧ decodeBtx defaultCmd 0x000 = .ignoredWrite 0 := by
  decide
/-- R77: the assembler's words, through the encoder. -/
theorem test_encode : encode defaultCmd (.setgain 3) = .req 0x0303 ∧
    encode defaultCmd (.wake 0) = .req 0x0500 ∧ encode defaultCmd .bwGain64 = .btx 0x01B ∧
    encode defaultCmd (.br 0) = .btx 0x100 := by decide
/-- R78: the pseudo-instructions, SETPULSES at both ends of its range and past them. -/
theorem test_pseudo : expandPseudo .gain64 = some (.setgain 3) ∧
    expandPseudo (.setPulses 25) = some (.setgain 1) ∧ expandPseudo (.setPulses 27) = some (.setgain 3) ∧
    expandPseudo (.setPulses 24) = none ∧ expandPseudo (.setPulses 28) = none ∧
    expandPseudo (.deepSleep true) = some (.sleep 0) := by decide
/-- The opcode table's numbers. -/
theorem test_table_words : decodeTableWord 16 0x0100 = some (.read 0) ∧
    decodeTableWord 16 0x0019 = some .bwGain128 ∧ decodeTableWord 9 0x100 = some (.br 0) ∧
    decodeTableWord 16 0x0600 = none := by decide

/-! ### Well-formedness and parameter ranges: an ill-formed term for each check -/

theorem test_wellFormed : Instr.bwSleep.wellFormed defaultCmd = true ∧
    Instr.bwWake.wellFormed defaultCmd = true ∧ (Instr.read 0xFF).wellFormed defaultCmd = true := by decide
theorem test_ill_sleep_is_gain : Instr.bwSleep.wellFormed ⟨0x19, 0x02⟩ = false := by decide
theorem test_ill_wake_is_gain : Instr.bwWake.wellFormed ⟨0x01, 0x1B⟩ = false := by decide
theorem test_ill_wake_is_sleep : Instr.bwWake.wellFormed ⟨0x01, 0x01⟩ = false := by decide

/-- R12 to R14: the defaults are legal, and so are the ends of the ranges. -/
theorem test_config_legal : configLegal Config.coreDefault = true ∧
    configLegal Config.bridgeDefault = true ∧
    configLegal { Config.coreDefault with tickNs := 200 , tHigh := 1, tLow := 299, tSleepHold := 301 } =
      true := by decide
/-- R12: a phase under 200 ns or of 60 us, a hold of 60 us, and zeros. -/
theorem test_config_illegal_timing :
    configLegal { Config.coreDefault with tickNs := 100 } = false ∧
    configLegal { Config.coreDefault with tHigh := 60 } = false ∧
    configLegal { Config.coreDefault with tLow := 60 } = false ∧
    configLegal { Config.coreDefault with tSleepHold := 60 } = false ∧
    configLegal { Config.coreDefault with poll := 0 } = false ∧
    configLegal { Config.coreDefault with readyTimeout := some 0 } = false := by decide
/-- R13, R14: the reset gain and the command bytes. -/
theorem test_config_illegal_bytes :
    configLegal { Config.coreDefault with gainReset := 0 } = false ∧
    configLegal { Config.coreDefault with gainReset := 4 } = false ∧
    configLegal { Config.coreDefault with cmd := ⟨0x1A, 0x02⟩ } = false ∧
    configLegal { Config.coreDefault with cmd := ⟨0x01, 0x19⟩ } = false ∧
    configLegal { Config.coreDefault with cmd := ⟨0x05, 0x05⟩ } = false := by decide
/-- R130: 100 ms is 100000 ticks of 1 us, and the bound rounds up. -/
theorem test_bridge_timeout : Config.bridgeTimeout 1000 = 100000 ∧ Config.bridgeTimeout 3000 = 33334 := by
  decide

/-! ### Small states -/

/-- Nothing presented, DOUT fixed. -/
def quiet (d : Bool) : TickIn := ⟨false, none, none, some d⟩
/-- A request on the port, DOUT HIGH. -/
def asks (w : Req16) : TickIn := ⟨false, some w, none, some true⟩
/-- A bus transaction, DOUT HIGH. -/
def sends (w : Btx9) (n : Nat) : TickIn := ⟨false, none, some ⟨0, w, n⟩, some true⟩
/-- Nothing presented, and the chip drives DOUT. -/
def free : TickIn := ⟨false, none, none, none⟩

/-- The core configuration in FSM state `f` with SCK at `c`. -/
def eng (f : Fsm) (c : Bool) : Engine := { Engine.reset Config.coreDefault with fsm := f, sck := c }

def at0 (p : Config) (e : Engine) (ch : Chip) (ins : List TickIn) : State :=
  { State.resetWith p with core := e, chip := ch, inputs := ins }

def chipAsleep : Chip := { Chip.start with asleep := true, hold := 81 }
def chipShifting (n : Nat) (v : U24) (h : Nat) : Chip :=
  { Chip.start with hold := h, phase := .shifting ⟨v, .unknown⟩, pulses := n }

/-- Idle and awake, as after reset. -/
def awake (x : TickIn) : State := at0 Config.coreDefault (Engine.reset Config.coreDefault) Chip.start [x]
/-- Idle and asleep, with a RESULT to lose. -/
def asleep (x : TickIn) : State :=
  at0 Config.coreDefault
    { eng .idle true with sleep := true, result := 0x42 } chipAsleep [x]
/-- The bridge with a transaction held in B_WAIT. -/
def holding (w : Btx9) (e : Engine) : State :=
  { at0 Config.bridgeDefault e Chip.start [quiet true] with
    bridge := ⟨.bWait, w, if dirField w then 4 else 1⟩ }

def after (s : State) : Option Engine :=
  match step s with
  | .next t => some t.core
  | .fault _ => none
  | .refused _ => none

def busAfter (s : State) : Option (Bridge × Bus) :=
  match step s with
  | .next t => some (t.bridge, t.bus)
  | .fault _ => none
  | .refused _ => none

def statusAfter (s : State) : Option Byte := (after s).map statusWord

/-! ### One step of each instruction -/

/-- V1, tick 0. -/
theorem test_read : (after (awake (asks 0x0100))).map (fun e => (e.fsm, e.mode, e.sck)) =
    some (.wait, .rd, false) := by decide
/-- V7: READ asleep. -/
theorem test_read_asleep : (after (asleep (asks 0x0100))).map (fun e => (statusWord e, e.result, e.sck)) =
    some (0x92, 0, true) := by decide
/-- R114. -/
theorem test_waitrdy : (after (awake (asks 0x0200))).map (fun e => (e.fsm, e.mode)) =
    some (.wait, .rdy) := by decide
/-- V7: WAITRDY asleep leaves RESULT. -/
theorem test_waitrdy_asleep : (after (asleep (asks 0x0200))).map (fun e => (statusWord e, e.result)) =
    some (0x92, 0x42) := by decide
/-- V5, and V5's row "while asleep". -/
theorem test_setgain :
    (after (awake (asks 0x0303))).map (fun e => (e.gainN, statusWord e)) = some (3, 0x80) ∧
    (after (asleep (asks 0x0302))).map (fun e => (e.gainN, statusWord e)) = some (2, 0x82) := by decide
/-- V5: 0x0300 and 0x0304 checked, and 0x0319 unchecked. -/
theorem test_setgain_range :
    (after (awake (asks 0x0300))).map (fun e => (e.gainN, statusWord e)) = some (1, 0x88) ∧
    (after (awake (asks 0x0304))).map (fun e => (e.gainN, statusWord e)) = some (1, 0x88) ∧
    (after (at0 { Config.coreDefault with gainCheck := false } (eng .idle false) Chip.start
      [asks 0x0319])).map (fun e => (e.gainN, statusWord e)) = some (25, 0x80) := by decide
/-- V6: SLEEP awake. -/
theorem test_sleep : (after (awake (asks 0x0400))).map (fun e => (e.fsm, e.sck, e.c)) =
    some (.slpLow, false, 1) := by decide
/-- V6: SLEEP asleep, with a nonzero arg. -/
theorem test_sleep_asleep : (after (asleep (asks 0x04AB))).map (fun e => (statusWord e, e.sck, e.result)) =
    some (0x82, true, 0x42) := by decide
/-- V6: WAKE asleep. -/
theorem test_wake : (after (asleep (asks 0x0500))).map (fun e => (statusWord e, e.sck)) =
    some (0x80, false) := by decide
/-- V6: WAKE awake. -/
theorem test_wake_awake : (after (awake (asks 0x0500))).map (fun e => (statusWord e, e.sck)) =
    some (0x80, false) := by decide
/-- V7: reserved ops awake and asleep. -/
theorem test_reserved : statusAfter (awake (asks 0x0000)) = some 0xC0 ∧
    statusAfter (asleep (asks 0x0700)) = some 0xC2 := by decide
/-- V7: a busy core rejects 0x0000 with OVERRUN, not ILLEGAL, and the wait goes on. -/
theorem test_overrun : statusAfter (at0 Config.coreDefault (eng .wait false) Chip.start [asks 0x0000]) =
    some 0xA1 := by decide
/-- V7: TIMEOUT and OVERRUN in one tick. -/
theorem test_overrun_timeout : statusAfter (at0 { Config.coreDefault with readyTimeout := some 5 }
    { eng .wait false with tmo := 4 } Chip.start [asks 0x0301]) = some 0xA4 := by decide
/-- V8: 0x019, 0x01A and 0x01B. -/
theorem test_bwGain128 : (after (holding 0x019 { eng .idle false with gainN := 3 })).map (·.gainN) =
    some 1 := by decide
theorem test_bwGain32 : (after (holding 0x01A (eng .idle false))).map (·.gainN) = some 2 := by decide
theorem test_bwGain64 : (after (holding 0x01B (eng .idle false))).map (·.gainN) = some 3 ∧
    (busAfter (holding 0x01B (eng .idle false))).map (fun x => (x.1.bfsm, x.2.out)) =
      some (.bIdle, .writeDone) := by decide
/-- V8: 0x001 and 0x002. -/
theorem test_bwSleep : (after (holding 0x001 (eng .idle false))).map (fun e => (e.fsm, e.sck)) =
    some (.slpLow, false) := by decide
theorem test_bwWake : (after (holding 0x002 { eng .idle true with sleep := true })).map
    (fun e => (e.sleep, e.sck)) = some (false, false) := by decide
/-- V8: 0x100 presents READ. -/
theorem test_br : (after (holding 0x100 (eng .idle false))).map (·.fsm) = some .wait ∧
    (busAfter (holding 0x100 (eng .idle false))).map (·.1.bfsm) = some .bRun := by decide
/-- V8: 0x1FF waits while the core is busy. -/
theorem test_br_waits : (busAfter (holding 0x1FF (eng .slpHold true))).map (·.1.bfsm) =
    some .bWait := by decide
/-- V8: 0x018 changes nothing and completes. -/
theorem test_ignored_write : (after (holding 0x018 (eng .idle false))).map (·.gainN) = some 1 ∧
    (busAfter (holding 0x018 (eng .idle false))).map (fun x => (x.1.bfsm, x.2.out)) =
      some (.bIdle, .writeDone) := by decide

/-- The bridge in B_RUN with RESULT = sext(0x800001), a read of `n` bytes. -/
def responding (n : Nat) : State :=
  { at0 Config.bridgeDefault { eng .idle false with result := 0xFF800001 } Chip.start [quiet true] with
    bridge := ⟨.bRun, 0x100, n⟩ }

/-- V2: the response, and a read that stops after 2 bytes. -/
theorem test_response : (busAfter (responding 4)).map (·.2.out) = some (.response [0xFF, 0x80, 0x00, 0x01]) ∧
    (busAfter (responding 2)).map (·.2.out) = some (.response [0xFF, 0x80]) := by decide
/-- R131: the oldest transaction is taken, the one that arrives waits behind. -/
theorem test_bridge_takes : (busAfter { State.resetWith Config.bridgeDefault with
      bus := ⟨[⟨0, 0x019, 1⟩], .quiet⟩, inputs := [sends 0x100 4] }) =
    some (⟨.bWait, 0x019, 1⟩, ⟨[⟨0, 0x100, 4⟩], .quiet⟩) := by decide
/-- R139: a read of 0 bytes is no transaction, a write of 2 bytes is refused. -/
theorem test_bus_lengths :
    (busAfter { State.resetWith Config.bridgeDefault with inputs := [sends 0x100 0] }).map (·.1.bfsm) =
      some .bIdle ∧
    (busAfter { State.resetWith Config.bridgeDefault with inputs := [sends 0x019 2] }) = none := by decide

/-- R52: a transaction to another address is none of the bridge's. -/
theorem test_bus_address : (busAfter { State.resetWith Config.bridgeDefault with
      inputs := [⟨false, none, some ⟨5, 0x019, 1⟩, some true⟩] }) =
    some (⟨.bIdle, 0, 0⟩, ⟨[], .quiet⟩) := by decide

/-! ### The pin protocol, one tick each -/

/-- V1, tick 1: the poll finds the chip ready. -/
theorem test_wait_ready : (after (at0 Config.coreDefault (eng .wait false) Chip.start [quiet false])).map
    (fun e => (e.fsm, e.sck, e.k, e.c)) = some (.high, true, 0, 1) := by decide
/-- R114's example: the last tick of WAITRDY, STATUS = 0x00. -/
theorem test_waitrdy_ready : statusAfter (at0 Config.coreDefault { eng .wait false with mode := .rdy }
    Chip.start [quiet false]) = some 0x00 := by decide
/-- V4: `P_POLL = 3`, a LOW at WAIT tick 2 is not seen. -/
theorem test_wait_not_polled : (after (at0 { Config.coreDefault with poll := 3 }
    { eng .wait false with pollc := 1 } Chip.start [quiet false])).map (fun e => (e.fsm, e.pollc)) =
    some (.wait, 2) := by decide
/-- V4: READ times out, and ready wins in the same tick. -/
theorem test_wait_timeout :
    (after (at0 { Config.coreDefault with readyTimeout := some 5 }
      { eng .wait false with tmo := 4, result := 0x42 } Chip.start [quiet true])).map
      (fun e => (statusWord e, e.result)) = some (0x84, 0) ∧
    (after (at0 { Config.coreDefault with readyTimeout := some 5 }
      { eng .wait false with tmo := 4 } Chip.start [quiet false])).map (·.fsm) = some .high := by decide
/-- V1, tick 6. -/
theorem test_high_samples : (after (at0 Config.coreDefault { eng .high true with k := 2, shreg := 2 }
    (chipShifting 3 0 1) [quiet true])).map (fun e => (e.fsm, e.sck, e.shreg)) =
    some (.low, false, 5) := by decide
/-- R151, R83: pulse 1 shows bit 23 in the second tick of a HIGH phase of two. -/
theorem test_data_at_sample_point : sample (at0 { Config.coreDefault with tHigh := 2 }
    { eng .high true with c := 2 } (chipShifting 1 0x800000 2) [free]) = true ∧
    sample (at0 { Config.coreDefault with tHigh := 2 }
    { eng .high true with c := 2 } (chipShifting 1 0x7FFFFF 2) [free]) = false := by decide
/-- V1, tick 50: the post-amble sample is not recorded. -/
theorem test_high_postamble : (after (at0 Config.coreDefault
    { eng .high true with k := 24, shreg := 0xA00001 } (chipShifting 25 0 1) [quiet true])).map
    (fun e => (e.fsm, e.shreg)) = some (.low, 0xA00001) := by decide
/-- V1, tick 51: Done. -/
theorem test_low_done : (after (at0 Config.coreDefault
    { eng .low false with k := 24, shreg := 0xA00001 } (chipShifting 25 0 0) [quiet true])).map
    (fun e => (e.fsm, e.result, e.sck)) = some (.idle, 0xFFA00001, false) := by decide
/-- V1, tick 49: pulse 24 follows pulse 23. -/
theorem test_low_next : (after (at0 Config.coreDefault { eng .low false with k := 23 }
    (chipShifting 24 0 0) [quiet true])).map (fun e => (e.fsm, e.k, e.sck)) =
    some (.high, 24, true) := by decide
/-- V6: the hold completes at C = 80. -/
theorem test_hold_done : (after (at0 Config.coreDefault { eng .slpHold true with c := 80 }
    { Chip.start with asleep := true, hold := 80 } [quiet true])).map (fun e => (statusWord e, e.sck)) =
    some (0x82, true) := by decide
/-- V9: HIGH, K = 10. -/
theorem test_reset_tick : (after (at0 Config.coreDefault { eng .high true with k := 10, result := 7 }
    Chip.start [⟨true, some 0x0303, none, some false⟩])) = some (Engine.reset Config.coreDefault) := by
  decide
/-- R171: a reset in a sleep hold that is past the threshold: awake, and the rest left open. -/
theorem test_reset_in_hold : (chipReset (eng .slpHold true) true 0 chipAsleep).asleep = false ∧
    (chipReset (eng .slpHold true) true 0 chipAsleep).phase = .uncertain := by decide
/-- E1. -/
theorem test_sign_extension : (sext32 0x7FFFFF).toInt = 8388607 ∧
    (sext32 0x800000).toInt = -8388608 ∧ (sext32 0x000001).toInt = 1 := by decide
/-- V2. -/
theorem test_response_frame : responseFrame (sext32 0xA00001) = [0xFF, 0xA0, 0x00, 0x01] := by decide
/-- `withFetchWord` places a word where the next step runs it. -/
theorem test_withFetchWord :
    (after ((awake (quiet true)).withFetchWord 16 0x0303)).map (·.gainN) = some 3 ∧
    (after ((awake (quiet true)).withFetchWord 16 0x001A)).map (·.gainN) = some 2 := by decide

/-! ### Witnesses: a state and operands that meet the hypotheses of each statement

`witness_<name>` belongs to `Obligations.<name>`; a statement with clauses has one conjunct per clause,
at a boundary. Statements that are not named here have no hypotheses. -/

/-- A core that waits, in the mode and with the bound given, after `n` ticks without readiness. -/
def waiting (m : WaitMode) (bound : Option Nat) (n : Nat) (ins : List TickIn) : State :=
  at0 { Config.coreDefault with readyTimeout := bound } { eng .wait false with mode := m, tmo := n }
    Chip.start ins
/-- The first tick of a pulse train, the chip about to shift out `v`. -/
def trainStart (v : U24) (ins : List TickIn) : State :=
  at0 Config.coreDefault (eng .high true) (chipShifting 1 v 1) ins
/-- The last LOW tick of a reading with `n` post-amble pulses (unchecked gain). -/
def lastLow (n : Byte) (ins : List TickIn) : State :=
  at0 { Config.coreDefault with gainCheck := false }
    { eng .low false with gainN := n, k := 23 + n.zeroExtend 9, shreg := 1 }
    (chipShifting (24 + n.toNat) 1 0) ins
/-- A HIGH tick with phases of 2 ticks. -/
def highAt (k : BitVec 9) (c : Nat) : State :=
  at0 { Config.coreDefault with tHigh := 2, tLow := 2 } { eng .high true with k := k, c := c }
    (chipShifting (k.toNat + 1) 0 c) [quiet true]
/-- A LOW tick with phases of 2 ticks. -/
def lowAt (k : BitVec 9) (c : Nat) : State :=
  at0 { Config.coreDefault with tHigh := 2, tLow := 2 } { eng .low false with k := k, c := c }
    (chipShifting (k.toNat + 1) 0 0) [quiet true]
/-- A tick of the sleep transition, with `P_T_LOW = 2`. -/
def slpAt (f : Fsm) (ck : Bool) (c : Nat) : State :=
  at0 { Config.coreDefault with tLow := 2 } { eng f ck with c := c } Chip.start [quiet true]
/-- The bridge in B_RUN, waiting for the READ of a 4-byte read. -/
def running (e : Engine) (ch : Chip) (ins : List TickIn) : State :=
  { at0 Config.bridgeDefault e ch ins with bridge := ⟨.bRun, 0x100, 4⟩ }
/-- The bridge at the first WAIT tick of a READ, with no chip, for 100 ms. -/
def deadBridge : State :=
  { running (eng .wait false) Chip.start (List.replicate 100000 free) with
    cfg := { Config.bridgeDefault with chipPresent := false } }
/-- The bridge in B_IDLE with `held` transactions on the bus. -/
def bridgeIdle (held : List BusTxn) : State :=
  { State.resetWith Config.bridgeDefault with bus := ⟨held, .quiet⟩, inputs := [quiet true] }

/-- The same while `x` arrives on a bus that holds transactions in the way `h`. -/
def arriving (h : BusHold) (held : List BusTxn) (x : BusTxn) : State :=
  { State.resetWith { Config.bridgeDefault with bus := ⟨h, false⟩ } with
    bus := ⟨held, .quiet⟩, inputs := [⟨false, none, some x, some true⟩] }

/-- `Inv` as a check, for the concrete states below. -/
def invCheck (s : State) : Bool :=
  configLegal s.cfg &&
  (match s.cfg.kind with
    | .core => decide (s.bridge.bfsm = .bIdle)
    | .bridge => !s.core.flags.overrun && !s.core.flags.badGain && !s.core.flags.illegal &&
        decide (s.core.fsm = .wait → s.core.mode = .rd) &&
        decide (s.bridge.bfsm = .bRun → s.core.fsm ≠ .slpLow ∧ s.core.fsm ≠ .slpHold)) &&
  (match readyBound s.cfg with
    | none => true
    | some n => decide (s.core.tmo < n)) &&
  decide (s.core.pollc < s.cfg.poll) && decide (1 ≤ s.core.c) &&
  decide (s.core.result = sext32 (s.core.result.extractLsb' 0 24)) &&
  decide (s.core.shreg.toNat < 2 ^ capturedBits s.core) &&
  (!s.cfg.gainCheck || gainInRange s.core.gainN) &&
  decide (s.core.c ≤ max s.cfg.tHigh (max s.cfg.tLow s.cfg.tSleepHold)) &&
  (match s.core.fsm with
    | .idle => s.core.sck == s.core.sleep && s.chip.asleep == s.core.sleep &&
        (s.core.sck || s.chip.hold == 0)
    | .wait => !s.core.sck && !s.core.sleep && !s.chip.asleep && s.chip.hold == 0
    | .slpLow => !s.core.sck && !s.core.sleep && decide (s.core.c ≤ s.cfg.tLow) && !s.chip.asleep &&
        s.chip.hold == 0
    | .slpHold => s.core.sck && !s.core.sleep && decide (s.core.c ≤ s.cfg.tSleepHold) &&
        s.chip.hold == s.core.c
    | .high => s.core.sck && !s.core.sleep && decide (s.core.c ≤ s.cfg.tHigh) && !s.chip.asleep &&
        s.chip.hold == s.core.c && decide (s.core.k.toNat ≤ 23 + s.core.gainN.toNat) &&
        s.chip.pulses == s.core.k.toNat + 1
    | .low => !s.core.sck && !s.core.sleep && decide (s.core.c ≤ s.cfg.tLow) && !s.chip.asleep &&
        s.chip.hold == 0 && decide (s.core.k.toNat ≤ 23 + s.core.gainN.toNat) &&
        s.chip.pulses == s.core.k.toNat + 1) &&
  (match s.chip.phase with
    | .shifting _ => decide (s.core.fsm = .high ∨ s.core.fsm = .low)
    | .uncertain => true
    | .converting => decide (s.core.fsm ≠ .high ∧ s.core.fsm ≠ .low)
    | .ready _ => decide (s.core.fsm ≠ .high ∧ s.core.fsm ≠ .low))

theorem inv_of_check {s : State} (h : invCheck s = true) : Inv s := by
  simp only [invCheck, Bool.and_eq_true, decide_eq_true_eq] at h
  obtain ⟨⟨⟨⟨⟨⟨⟨⟨⟨⟨hl, hk⟩, ht⟩, hp⟩, hc⟩, hr⟩, hs⟩, hg⟩, hm⟩, hf⟩, hch⟩ := h
  have htmo : ∀ n, readyBound s.cfg = some n → s.core.tmo < n := by
    intro n hn; simpa [hn] using ht
  have hgain : GainLegal s.cfg s.core := by
    intro hgc; simpa [hgc] using hg
  have hbr : BridgeAgrees s := by
    clear ht hch hf hg hl hr hs hm hc hp
    cases hkind : s.cfg.kind <;> simp only [hkind] at hk <;> constructor <;> simp_all <;> tauto
  have hrest : s.core.fsm ≠ .high → s.core.fsm ≠ .low → ∀ v, s.chip.phase ≠ .shifting v := by
    intro h1 h2 v hv; simp_all
  have htrain : s.core.fsm = .high ∨ s.core.fsm = .low →
      s.chip.phase = .uncertain ∨ ∃ v, s.chip.phase = .shifting v := by
    intro h1
    cases hv : s.chip.phase with
    | shifting v => exact .inr ⟨v, rfl⟩
    | uncertain => exact .inl rfl
    | converting => rcases h1 with h1 | h1 <;> simp_all
    | ready v => rcases h1 with h1 | h1 <;> simp_all
  clear hch ht hg
  refine ⟨hl, ?_, ?_, hgain, hr, hs, ⟨?_, ?_, ?_, ?_, ?_, htrain, hrest⟩, hbr⟩
  · clear hl hbr hgain htmo hrest htrain hr hs hm hc hp hk
    cases hfs : s.core.fsm <;> simp only [hfs] at hf <;> constructor <;> simp_all
  · clear hl hbr hgain hrest htrain hr hs hk
    refine ⟨hc, ?_, ?_, ?_, hm, ?_, hp, htmo⟩ <;> clear hc hm hp htmo <;>
      (cases hfs : s.core.fsm <;> simp only [hfs] at hf <;> simp_all)
  · clear hl hbr hgain htmo hrest htrain hr hs hm hc hp hk
    intro hlow
    cases hfs : s.core.fsm <;> simp only [hfs] at hf <;> simp_all
  all_goals
    clear hl hbr hgain htmo hrest htrain hr hs hm hc hp hk
    cases hfs : s.core.fsm <;> simp only [hfs] at hf <;> simp_all

/-- A step that is the quiet tick, in the core configuration with nothing presented. -/
theorem quiet_step {s : State} (hl : configLegal s.cfg = true) (hk : s.cfg.kind = .core)
    (hr : (input s).rst = false) (hq : (input s).req = none) : step s = .next (quietTick s) := by
  rcases step_core hl hk hr with h | ⟨w, f, h, _⟩
  · exact h.2
  · rw [hq] at h; cases h

theorem noReset_of {s : State} {n : Nat} (h : s.inputs = List.replicate n free ∨
    s.inputs = List.replicate n (quiet true) ∨ s.inputs = List.replicate n (quiet false)) :
    NoReset s n := by
  intro i hi
  unfold inputAt
  rcases h with h | h | h <;> rw [h, List.getElem?_replicate_of_lt hi] <;> rfl

theorem unscripted_of {s : State} {n : Nat} (h : s.inputs = List.replicate n free) :
    Unscripted s n := by
  intro i hi
  unfold inputAt
  rw [h, List.getElem?_replicate_of_lt hi]
  rfl

/-! #### Encoding and the step -/

theorem witness_DecodeEncodeRoundTrip : Instr.bwWake.wellFormed defaultCmd = true := by decide
theorem witness_EncodeDecodeRoundTrip : decode defaultCmd (.btx 0x1FF) = .instr (.br 0xFF) ∧
    decode defaultCmd (.req 0x03FF) = .instr (.setgain 0xFF) := by decide
/-- R72 at its boundaries 0x00, 0x05, 0x06 and 0xFF; R74 at 0x18, 0x1B and 0x1C. -/
theorem witness_OtherWordsAreRejectedByName :
    (decodeReq 0x0000 = .reservedOp (opField 0x0000) ∧ opField 0x0000 = 0) ∧
    (decodeReq 0x06AB = .reservedOp (opField 0x06AB) ∧ 0x06 ≤ (opField 0x06AB).toNat) ∧
    ¬ (opField 0x05AB = 0 ∨ 0x06 ≤ (opField 0x05AB).toNat) ∧
    (dirField 0x018 = false ∧ cmdField 0x018 ∉ [0x19, 0x1A, 0x1B, defaultCmd.sleep, defaultCmd.wake]) ∧
    ¬ (dirField 0x01B = false ∧
      cmdField 0x01B ∉ [0x19, 0x1A, 0x1B, defaultCmd.sleep, defaultCmd.wake]) ∧
    (dirField 0x01C = false ∧ cmdField 0x01C ∉ [0x19, 0x1A, 0x1B, defaultCmd.sleep, defaultCmd.wake]) := by
  decide
theorem witness_StepRunsTheRequest : configLegal (awake (asks 0x0303)).cfg = true ∧
    (awake (asks 0x0303)).cfg.kind = .core ∧ (input (awake (asks 0x0303))).rst = false ∧
    (input (awake (asks 0x0303))).req = some 0x0303 ∧ decodeReq 0x0303 = .instr (.setgain 3) := by decide
theorem witness_StepRunsTheHeldTransaction :
    let s := holding 0x019 (eng .idle false)
    configLegal s.cfg = true ∧ s.cfg.kind = .bridge ∧ (input s).rst = false ∧
      s.bridge.bfsm = .bWait ∧ decodeBtx s.cfg.cmd s.bridge.btxn = .instr .bwGain128 := by decide
/-- In the bridge with a legal transaction at the head. -/
theorem witness_StepAnswersANextState :
    let s := bridgeIdle [⟨0, 0x100, 4⟩]
    configLegal s.cfg = true ∧ (s.cfg.kind = .bridge → s.bridge.bfsm = .bIdle →
      (input s).rst = false → ∀ x, (arrivals s).head? = some x → badWriteLength x = false) := by
  refine ⟨by decide, fun _ _ _ x h => ?_⟩
  cases (show some (⟨0, 0x100, 4⟩ : BusTxn) = some x from h)
  decide
theorem witness_RefusalsAreTheSpecs :
    configLegal (at0 { Config.coreDefault with tHigh := 60 } (eng .idle false) Chip.start []).cfg = false ∧
    (let s := bridgeIdle [⟨0, 0x019, 0⟩]
     configLegal s.cfg = true ∧ (input s).rst = false ∧ s.cfg.kind = .bridge ∧
       s.bridge.bfsm = .bIdle ∧ arrivals s = [⟨0, 0x019, 0⟩] ∧ dirField 0x019 = false) ∧
    arrivals (bridgeIdle [⟨0, 0x019, 2⟩]) = [⟨0, 0x019, 2⟩] := by decide
theorem witness_ResetTick :
    let s := at0 Config.coreDefault (eng .slpHold true) Chip.start [⟨true, some 0x0100, none, some true⟩]
    configLegal s.cfg = true ∧ (input s).rst = true := by decide
theorem witness_IdleTickOnlySamples :
    let s := asleep (quiet true)
    configLegal s.cfg = true ∧ (input s).rst = false ∧ s.cfg.kind = .core ∧
      (input s).req = none ∧ s.core.fsm = .idle := by decide

/-! #### Core requests -/

theorem witness_idle_awake : (awake (quiet true)).core.fsm = .idle ∧
    (awake (quiet true)).core.sleep = false := by decide
theorem witness_idle_asleep : (asleep (quiet true)).core.fsm = .idle ∧
    (asleep (quiet true)).core.sleep = true := by decide
theorem witness_ReadAccepted : (awake (quiet true)).core.fsm = .idle ∧
    (awake (quiet true)).core.sleep = false := witness_idle_awake
theorem witness_WaitrdyAccepted : (awake (quiet true)).core.fsm = .idle ∧
    (awake (quiet true)).core.sleep = false := witness_idle_awake
theorem witness_SleepAccepted : (awake (quiet true)).core.fsm = .idle ∧
    (awake (quiet true)).core.sleep = false := witness_idle_awake
theorem witness_WakeWhileAwake : (awake (quiet true)).core.fsm = .idle ∧
    (awake (quiet true)).core.sleep = false ∧ ClockLevels (awake (quiet true)).core :=
  ⟨by decide, by decide, (inv_of_check (s := awake (quiet true)) (by decide)).clock⟩
theorem witness_ReadWhileAsleep : (asleep (quiet true)).core.fsm = .idle ∧
    (asleep (quiet true)).core.sleep = true ∧ ClockLevels (asleep (quiet true)).core ∧
    ChipAgrees (asleep (quiet true)) :=
  have h := inv_of_check (s := asleep (quiet true)) (by decide)
  ⟨by decide, by decide, h.clock, h.chip⟩
theorem witness_WaitrdyWhileAsleep : (asleep (quiet true)).core.fsm = .idle ∧
    (asleep (quiet true)).core.sleep = true := witness_idle_asleep
theorem witness_SleepWhileAsleep : (asleep (quiet true)).core.fsm = .idle ∧
    (asleep (quiet true)).core.sleep = true ∧ ClockLevels (asleep (quiet true)).core :=
  ⟨by decide, by decide, (inv_of_check (s := asleep (quiet true)) (by decide)).clock⟩
theorem witness_WakeAccepted : (asleep (quiet true)).core.fsm = .idle ∧
    (asleep (quiet true)).core.sleep = true ∧ ChipAgrees (asleep (quiet true)) :=
  ⟨by decide, by decide, (inv_of_check (s := asleep (quiet true)) (by decide)).chip⟩
/-- Checked with 3, unchecked with 255. -/
theorem witness_SetgainAccepted :
    ((awake (quiet true)).core.fsm = .idle ∧ ((3 : Byte) = 1 ∨ (3 : Byte) = 2 ∨ (3 : Byte) = 3)) ∧
    (let s := at0 { Config.coreDefault with gainCheck := false } (eng .idle false) Chip.start []
     s.core.fsm = .idle ∧ s.cfg.gainCheck = false) := by decide
/-- 0 and 4. -/
theorem witness_SetgainOutOfRange : (awake (quiet true)).core.fsm = .idle ∧
    (awake (quiet true)).cfg.gainCheck = true ∧
    ¬ ((0 : Byte) = 1 ∨ (0 : Byte) = 2 ∨ (0 : Byte) = 3) ∧
    ¬ ((4 : Byte) = 1 ∨ (4 : Byte) = 2 ∨ (4 : Byte) = 3) := by decide
theorem witness_ReservedOpRaisesIllegal :
    let s := asleep (asks 0x0600)
    configLegal s.cfg = true ∧ (input s).rst = false ∧ s.cfg.kind = .core ∧
      (input s).req = some 0x0600 ∧ s.core.fsm = .idle ∧
      (opField 0x0600 = 0 ∨ 0x06 ≤ (opField 0x0600).toNat) := by decide
theorem witness_BusyRequestOverruns : (at0 Config.coreDefault (eng .wait false) Chip.start []).core.fsm ≠
    .idle := by decide
/-- With a request that raises a flag. -/
theorem witness_AcceptanceRaisesAtMostOneFlag :
    let s := awake (asks 0x0304)
    (input s).rst = false ∧ s.cfg.kind = .core ∧ (input s).req = some 0x0304 ∧ s.core.fsm = .idle ∧
      statusAfter s = some 0x88 ∧ step s = .next (requestTick s (acceptSetgain true 4)) :=
  ⟨by decide, by decide, by decide, by decide, by decide, rfl⟩

/-! #### Pin protocol -/

/-- The state of `test_overrun_timeout`: a request and a timeout in one tick. -/
theorem witness_BusyTickFlags :
    let s := waiting .rd (some 5) 4 [asks 0x0301]
    step s = .next (requestTick s (acceptSetgain true 1)) ∧ (input s).rst = false ∧ s.core.fsm ≠ .idle ∧
      ¬ (s.core.pollc = 0 ∧ sample s = false) ∧ timeoutDue s.cfg s.core = true :=
  ⟨rfl, by decide, by decide, by decide, by decide⟩
/-- Ready in both modes; the timeout at `TMO + 1 = P_READY_TIMEOUT`; the tick before it; no bound. -/
theorem witness_WaitTickRules :
    (let s := waiting .rd none 0 [quiet false]
     step s = .next (quietTick s) ∧ (input s).rst = false ∧ s.core.fsm = .wait ∧
       (s.core.pollc = 0 ∧ sample s = false) ∧ s.core.mode = .rd) ∧
    (let s := waiting .rdy (some 5) 4 [quiet false]
     step s = .next (quietTick s) ∧ (s.core.pollc = 0 ∧ sample s = false) ∧ s.core.mode = .rdy) ∧
    (let s := waiting .rd (some 5) 4 [quiet true]
     step s = .next (quietTick s) ∧ ¬ (s.core.pollc = 0 ∧ sample s = false) ∧
       ∃ n, readyBound s.cfg = some n ∧ n ≤ s.core.tmo + 1) ∧
    (let s := waiting .rd (some 5) 3 [quiet true]
     step s = .next (quietTick s) ∧ ¬ (s.core.pollc = 0 ∧ sample s = false) ∧
       ¬ ∃ n, readyBound s.cfg = some n ∧ n ≤ s.core.tmo + 1) ∧
    (let s := waiting .rd none 0 [quiet true]
     step s = .next (quietTick s) ∧ ¬ (s.core.pollc = 0 ∧ sample s = false) ∧
       ¬ ∃ n, readyBound s.cfg = some n ∧ n ≤ s.core.tmo + 1) :=
  ⟨⟨rfl, by decide, by decide, by decide, by decide⟩, ⟨rfl, by decide, by decide⟩,
    ⟨rfl, by decide, 5, rfl, by decide⟩,
    ⟨rfl, by decide, fun ⟨n, h, h2⟩ => by cases h; exact absurd h2 (by decide)⟩,
    ⟨rfl, by decide, fun ⟨n, h, _⟩ => by cases h⟩⟩
/-- `C` below the bound; `K = 23` and `K = 24` at it. -/
theorem witness_HighTickRules :
    (let s := highAt 0 1
     step s = .next (quietTick s) ∧ (input s).rst = false ∧ s.core.fsm = .high ∧
       s.core.c < s.cfg.tHigh) ∧
    (let s := highAt 23 2
     step s = .next (quietTick s) ∧ s.core.c = s.cfg.tHigh ∧ s.core.k.toNat < 24) ∧
    (let s := highAt 24 2
     step s = .next (quietTick s) ∧ s.core.c = s.cfg.tHigh ∧ 24 ≤ s.core.k.toNat) :=
  ⟨⟨rfl, by decide, by decide, by decide⟩, ⟨rfl, by decide, by decide⟩, ⟨rfl, by decide, by decide⟩⟩
/-- `C` below the bound; the last but one and the last pulse at it (`GAIN_N = 1`). -/
theorem witness_LowTickRules :
    (let s := lowAt 0 1
     step s = .next (quietTick s) ∧ (input s).rst = false ∧ s.core.fsm = .low ∧
       s.core.c < s.cfg.tLow) ∧
    (let s := lowAt 23 2
     step s = .next (quietTick s) ∧ s.core.c = s.cfg.tLow ∧
       s.core.k.toNat + 1 < 24 + s.core.gainN.toNat) ∧
    (let s := lowAt 24 2
     step s = .next (quietTick s) ∧ s.core.c = s.cfg.tLow ∧
       24 + s.core.gainN.toNat ≤ s.core.k.toNat + 1) :=
  ⟨⟨rfl, by decide, by decide, by decide⟩, ⟨rfl, by decide, by decide⟩, ⟨rfl, by decide, by decide⟩⟩
theorem witness_SleepTransitionTickRules :
    (let s := slpAt .slpLow false 1
     step s = .next (quietTick s) ∧ (input s).rst = false ∧ s.core.fsm = .slpLow ∧
       s.core.c < s.cfg.tLow) ∧
    (let s := slpAt .slpLow false 2
     step s = .next (quietTick s) ∧ s.core.fsm = .slpLow ∧ s.cfg.tLow ≤ s.core.c) ∧
    (let s := slpAt .slpHold true 79
     step s = .next (quietTick s) ∧ s.core.fsm = .slpHold ∧ s.core.c < s.cfg.tSleepHold) ∧
    (let s := slpAt .slpHold true 80
     step s = .next (quietTick s) ∧ s.core.fsm = .slpHold ∧ s.cfg.tSleepHold ≤ s.core.c) :=
  ⟨⟨rfl, by decide, by decide, by decide⟩, ⟨rfl, by decide, by decide⟩, ⟨rfl, by decide, by decide⟩,
    ⟨rfl, by decide, by decide⟩⟩
/-- A negative and a positive RESULT. -/
theorem witness_ResponseTopByteIsSign :
    ResultIsSample { eng .idle false with result := 0xFF800000 } ∧
    ResultIsSample { eng .idle false with result := 0x007FFFFF } := by
  unfold ResultIsSample; decide

/-! #### Bridge -/

theorem witness_BridgeGainWrites : ((Instr.bwGain64, (3 : Byte)) ∈
      [(Instr.bwGain128, (1 : Byte)), (.bwGain32, 2), (.bwGain64, 3)]) ∧
    (holding 0x01B (eng .idle false)).core.fsm = .idle := by decide
/-- Awake and asleep. -/
theorem witness_bridge_idle : (holding 0x001 (eng .idle false)).core.fsm = .idle ∧
    (holding 0x001 { eng .idle true with sleep := true }).core.fsm = .idle ∧
    (holding 0x001 { eng .idle true with sleep := true }).core.sleep = true := by decide
theorem witness_BridgeSleepWrite : (holding 0x001 (eng .idle false)).core.fsm = .idle :=
  witness_bridge_idle.1
theorem witness_BridgeWakeWrite : (holding 0x002 (eng .idle false)).core.fsm = .idle := by decide
theorem witness_BridgeReadPresentsRead : (holding 0x100 (eng .idle false)).core.fsm = .idle := by decide
theorem witness_HeldTransactionWaits : (Instr.br 7 ∈
      [Instr.bwGain128, .bwGain32, .bwGain64, .bwSleep, .bwWake, .br 7]) ∧
    (holding 0x107 (eng .low false)).core.fsm ≠ .idle := by decide
/-- Reads of 1, 4 and 5 bytes. -/
theorem witness_BridgeReadResponds : ∀ n ∈ [1, 4, 5], let s := responding n
    configLegal s.cfg = true ∧ (input s).rst = false ∧ s.cfg.kind = .bridge ∧
      s.bridge.bfsm = .bRun ∧ s.core.fsm = .idle := by decide
/-- 0x18 and 0x1C, either side of the gain bytes. -/
theorem witness_IgnoredWriteChangesNothing : ∀ w ∈ [(0x018 : Btx9), 0x01C],
    let s := holding w (eng .idle false)
    configLegal s.cfg = true ∧ (input s).rst = false ∧ s.cfg.kind = .bridge ∧
      s.bridge.bfsm = .bWait ∧ dirField s.bridge.btxn = false ∧
      cmdField s.bridge.btxn ∉ [0x19, 0x1A, 0x1B, s.cfg.cmd.sleep, s.cfg.cmd.wake] ∧
      s.core.fsm = .idle := by decide
/-- Two held transactions in B_IDLE; none; B_WAIT with an ignored write and B_RUN, the core busy; a read
of 0 bytes; another address; a transaction for the bridge that finds none waiting in B_IDLE (a read and a
write of 0 bytes), and one that finds one waiting in a queue, with stretching and with NAK. -/
theorem witness_BridgeTakesOldestTransaction :
    (let s := bridgeIdle [⟨0, 0x01A, 1⟩, ⟨0, 0x100, 4⟩]
     configLegal s.cfg = true ∧ (input s).rst = false ∧ s.cfg.kind = .bridge ∧
       s.bridge.bfsm = .bIdle ∧ arrivals s = [⟨0, 0x01A, 1⟩, ⟨0, 0x100, 4⟩] ∧
       badWriteLength ⟨0, 0x01A, 1⟩ = false) ∧
    (let s := bridgeIdle []
     configLegal s.cfg = true ∧ (input s).rst = false ∧ s.cfg.kind = .bridge ∧
       s.bridge.bfsm = .bIdle ∧ arrivals s = []) ∧
    (let s := holding 0x018 (eng .wait false)
     configLegal s.cfg = true ∧ (input s).rst = false ∧ s.cfg.kind = .bridge ∧
       s.bridge.bfsm ≠ .bIdle ∧ s.core.fsm ≠ .idle) ∧
    (let s := running (eng .wait false) Chip.start [sends 0x100 0]
     configLegal s.cfg = true ∧ (input s).rst = false ∧ s.cfg.kind = .bridge ∧
       s.bridge.bfsm ≠ .bIdle ∧ s.core.fsm ≠ .idle ∧
       (input s).txn = some ⟨0, 0x100, 0⟩ ∧ dirField 0x100 = true) ∧
    (let s := running (eng .wait false) Chip.start [⟨false, none, some ⟨5, 0x019, 1⟩, some true⟩]
     (input s).txn = some ⟨5, 0x019, 1⟩ ∧ 5 ≠ s.cfg.bridgeAddr) ∧
    (let s := holding 0x100 (eng .wait false)
     s.bridge.bfsm ≠ .bIdle ∧ step s = .next (quietTick s)) ∧
    (∀ x ∈ [(⟨0, 0x100, 1⟩ : BusTxn), ⟨0, 0x019, 0⟩], let s := arriving .queue [] x
     configLegal s.cfg = true ∧ (input s).rst = false ∧ s.cfg.kind = .bridge ∧
       s.bridge.bfsm = .bIdle ∧ (input s).txn = some x ∧
       (dirField x.word = false ∨ x.len ≠ 0) ∧ x.addr = s.cfg.bridgeAddr ∧ arrivals s = [x]) ∧
    (∀ h ∈ [BusHold.queue, .stretch, .nak], let s := arriving h [⟨0, 0x01A, 1⟩] ⟨0, 0x100, 4⟩
     configLegal s.cfg = true ∧ (input s).rst = false ∧ s.cfg.kind = .bridge ∧
       (input s).txn = some ⟨0, 0x100, 4⟩ ∧ s.bus.held ≠ [] ∧ 0 = s.cfg.bridgeAddr) :=
  ⟨by decide, by decide, by decide, by decide, by decide, ⟨by decide, rfl⟩, by decide, by decide⟩
theorem witness_BridgeDrivesTheSameCore : ((Instr.bwWake, Instr.wake 0) ∈
      [(Instr.bwGain128, Instr.setgain 1), (.bwGain32, .setgain 2), (.bwGain64, .setgain 3),
        (.bwSleep, .sleep 0), (.bwWake, .wake 0), (.br 7, .read 0)]) ∧
    (holding 0x002 { eng .idle true with sleep := true }).core.fsm = .idle := by decide

/-! #### Chip -/

/-- Absent; ready; pulses 1, 24 and 25 at the sample point, and in the tick before it with
`P_T_HIGH = 2`. -/
theorem witness_ChipDrivesDout :
    (let s := at0 { Config.coreDefault with chipPresent := false } (eng .wait false) Chip.start [free]
     (input s).dout = none ∧ s.cfg.chipPresent = false) ∧
    (let s := at0 Config.coreDefault (eng .wait false) { Chip.start with phase := .ready ⟨5, .unknown⟩ } [free]
     (input s).dout = none ∧ s.cfg.chipPresent = true ∧ s.chip.asleep = false ∧
       s.chip.phase = .ready ⟨5, .unknown⟩ ∧ s.core.sck = false) ∧
    (∀ n ∈ [1, 24, 25], let s := at0 Config.coreDefault (eng .high true) (chipShifting n 5 1) [free]
     (input s).dout = none ∧ s.cfg.chipPresent = true ∧ s.chip.asleep = false ∧
       s.chip.phase = .shifting ⟨5, .unknown⟩ ∧ s.core.sck = true ∧ s.core.fsm = .high ∧
       s.cfg.tHigh ≤ s.core.c ∧ s.chip.pulses = n) ∧
    (∀ k ∈ [(0 : BitVec 9), 23, 24], let s := { highAt k 1 with inputs := [free] }
     (input s).dout = none ∧ s.cfg.chipPresent = true ∧ s.chip.asleep = false ∧
       s.chip.phase = .shifting ⟨0, .unknown⟩ ∧ s.core.sck = true ∧ s.core.fsm = .high ∧
       s.core.c < s.cfg.tHigh) := by decide
/-- A conversion that becomes ready in WAITRDY, and in a READ; one that stays ready, one whose shift
begins. -/
theorem witness_ConversionKeepsItsSelection :
    (let s := waiting .rdy none 0 [quiet false]
     Inv s ∧ step s = .next (quietTick s) ∧ (input s).rst = false ∧ s.chip.phase = .converting ∧
       s.core.sck = false ∧ sample s = false ∧ (quietTick s).core.fsm ≠ .high) ∧
    (let s := waiting .rd none 0 [quiet false]
     Inv s ∧ step s = .next (quietTick s) ∧ s.chip.phase = .converting ∧ s.core.sck = false ∧
       sample s = false ∧ (quietTick s).core.fsm = .high) ∧
    (let s := { waiting .rdy none 0 [quiet false] with
        chip := { Chip.start with phase := .ready ⟨5, .programmed 1⟩ } }
     Inv s ∧ step s = .next (quietTick s) ∧ s.chip.phase = .ready ⟨5, .programmed 1⟩ ∧
       s.core.sck = false ∧ (quietTick s).core.fsm ≠ .high) ∧
    (let s := { waiting .rd none 0 [quiet false] with
        chip := { Chip.start with phase := .ready ⟨5, .programmed 1⟩ } }
     Inv s ∧ step s = .next (quietTick s) ∧ s.chip.phase = .ready ⟨5, .programmed 1⟩ ∧
       s.core.sck = false ∧ (quietTick s).core.fsm = .high) :=
  ⟨⟨inv_of_check (by decide), rfl, by decide, by decide, by decide, by decide, by decide⟩,
    ⟨inv_of_check (by decide), rfl, by decide, by decide, by decide, by decide⟩,
    ⟨inv_of_check (by decide), rfl, by decide, by decide, by decide⟩,
    ⟨inv_of_check (by decide), rfl, by decide, by decide, by decide⟩⟩
/-- `GAIN_N` = 1, 3, and 0, 4. -/
theorem witness_ReadingProgramsTheChip : ∀ n ∈ [(1 : Byte), 3, 0, 4],
    let s := lastLow n [quiet true]
    Inv s ∧ step s = .next (quietTick s) ∧ (input s).rst = false ∧ s.core.fsm = .low ∧
      (quietTick s).core.fsm = .idle ∧ s.core.gainN = n := by
  intro n hn
  simp only [List.mem_cons, List.not_mem_nil, or_false] at hn
  rcases hn with rfl | rfl | rfl | rfl <;>
    exact ⟨inv_of_check (by decide), rfl, by decide, by decide, by decide, by decide⟩
theorem witness_SelectionChangesOnlyBySck :
    let s := lastLow 3 [quiet true]
    Inv s ∧ step s = .next (quietTick s) ∧ (quietTick s).chip.sel ≠ s.chip.sel :=
  ⟨inv_of_check (by decide), rfl, by decide⟩

/-! #### Invariants -/

theorem witness_StepKeepsTheInvariant :
    let s := lastLow 1 [quiet true]
    Inv s ∧ step s = .next (quietTick s) := ⟨inv_of_check (by decide), rfl⟩
theorem witness_ResetMeetsTheInvariant : configLegal Config.bridgeDefault = true := by decide
theorem witness_IdleClockShowsSleep :
    let s := slpAt .slpHold true 80
    ClockLevels s.core ∧ step s = .next (quietTick s) ∧ (quietTick s).core.fsm = .idle :=
  ⟨⟨by decide, by decide, by decide, by decide⟩, rfl, by decide⟩
theorem witness_BusyKeepsGainAndSleep :
    let s := slpAt .slpHold true 80
    step s = .next (quietTick s) ∧ (input s).rst = false ∧ s.core.fsm ≠ .idle ∧
      (quietTick s).core.sleep ≠ s.core.sleep := ⟨rfl, by decide, by decide, by decide⟩
/-- A rising and a falling edge. -/
theorem witness_ClockEdges :
    (let s := waiting .rd none 0 [quiet false]
     Inv s ∧ step s = .next (quietTick s) ∧ (quietTick s).core.sck ≠ s.core.sck ∧
       (quietTick s).core.sck = true) ∧
    (let s := trainStart 5 [quiet true]
     Inv s ∧ step s = .next (quietTick s) ∧ (quietTick s).core.sck ≠ s.core.sck ∧
       (quietTick s).core.sck = false) :=
  ⟨⟨inv_of_check (by decide), rfl, by decide, by decide⟩,
    ⟨inv_of_check (by decide), rfl, by decide, by decide⟩⟩
theorem witness_ResultWriters :
    let s := lastLow 1 [quiet true]
    step s = .next (quietTick s) ∧ (quietTick s).core.result ≠ s.core.result := ⟨rfl, by decide⟩

/-! #### Runs: each in the core configuration, and in the bridge -/

theorem witness_PulseTrainShape :
    (let s := trainStart 5 (List.replicate 49 (quiet true))
     Inv s ∧ ReadRuns s ∧ s.core.fsm = .high ∧ s.core.k = 0 ∧ s.core.c = 1 ∧
       49 < trainTicks s.cfg s.core.gainN ∧ NoReset s 49) ∧
    (let s := running (eng .high true) (chipShifting 1 5 1) (List.replicate 49 (quiet true))
     Inv s ∧ ReadRuns s ∧ s.core.fsm = .high ∧ s.core.k = 0 ∧ s.core.c = 1 ∧
       49 < trainTicks s.cfg s.core.gainN ∧ NoReset s 49) :=
  ⟨⟨inv_of_check rfl, .inl rfl, rfl, rfl, rfl, by decide, noReset_of (.inr (.inl rfl))⟩,
    ⟨inv_of_check rfl, .inr rfl, rfl, rfl, rfl, by decide, noReset_of (.inr (.inl rfl))⟩⟩
theorem witness_PulseTrainDeliversTheSamples :
    (let s := trainStart 5 (List.replicate 50 (quiet true))
     Inv s ∧ ReadRuns s ∧ s.core.fsm = .high ∧ s.core.k = 0 ∧ s.core.c = 1 ∧
       NoReset s (trainTicks s.cfg s.core.gainN)) ∧
    (let s := running (eng .high true) (chipShifting 1 5 1) (List.replicate 50 (quiet true))
     Inv s ∧ ReadRuns s ∧ s.core.fsm = .high ∧ s.core.k = 0 ∧ s.core.c = 1 ∧
       NoReset s (trainTicks s.cfg s.core.gainN)) :=
  ⟨⟨inv_of_check rfl, .inl rfl, rfl, rfl, rfl, noReset_of (.inr (.inl rfl))⟩,
    ⟨inv_of_check rfl, .inr rfl, rfl, rfl, rfl, noReset_of (.inr (.inl rfl))⟩⟩
theorem witness_ReadingDeliversTheConversion :
    (let s := trainStart 5 (List.replicate 50 free)
     Inv s ∧ ReadRuns s ∧ s.cfg.chipPresent = true ∧ s.core.fsm = .high ∧ s.core.k = 0 ∧
       s.core.c = 1 ∧ s.chip.phase = .shifting ⟨5, .unknown⟩ ∧
       NoReset s (trainTicks s.cfg s.core.gainN) ∧ Unscripted s (trainTicks s.cfg s.core.gainN)) ∧
    (let s := running (eng .high true) (chipShifting 1 5 1) (List.replicate 50 free)
     Inv s ∧ ReadRuns s ∧ s.cfg.chipPresent = true ∧ s.core.fsm = .high ∧ s.core.k = 0 ∧
       s.core.c = 1 ∧ s.chip.phase = .shifting ⟨5, .unknown⟩ ∧
       NoReset s (trainTicks s.cfg s.core.gainN) ∧ Unscripted s (trainTicks s.cfg s.core.gainN)) :=
  ⟨⟨inv_of_check rfl, .inl rfl, rfl, rfl, rfl, rfl, rfl, noReset_of (.inl rfl), unscripted_of rfl⟩,
    ⟨inv_of_check rfl, .inr rfl, rfl, rfl, rfl, rfl, rfl, noReset_of (.inl rfl), unscripted_of rfl⟩⟩

/-- A READ about to be accepted, that finds the chip ready in WAIT tick 2: the tick of the READ, a HIGH
poll, a LOW poll, and the train. -/
def readIn2 (p : Config) : State :=
  { at0 p (eng .idle false) Chip.start
      ([quiet true, quiet true, quiet false] ++ List.replicate 50 (quiet true)) with
    bridge := ⟨if p.kind = .bridge then .bWait else .bIdle, 0x107, 4⟩ }

theorem readIn2_noReset (p : Config) : NoReset (readIn2 p) 53 := by
  intro i hi
  unfold inputAt readIn2 at0
  match i with
  | 0 => rfl
  | 1 => rfl
  | 2 => rfl
  | n + 3 =>
    simp only [List.cons_append, List.nil_append, List.getElem?_cons_succ]
    rw [List.getElem?_replicate_of_lt (by omega)]
    rfl

/-- `w = 2`, with the premises on the polls: the first finds HIGH, the second LOW. -/
theorem witness_ReadDuration :
    (let s := readIn2 Config.coreDefault
     Inv s ∧ s.cfg.kind = .core ∧ s.core.fsm = .idle ∧ s.core.sleep = false ∧
       pollTick s.cfg (2 - 1) = true ∧ (∀ n, readyBound s.cfg = some n → 2 ≤ n) ∧
       NoReset s (1 + 2 + trainTicks s.cfg s.core.gainN) ∧
       ∃ t0, exec (.read 7) s = .next t0 ∧
         (∀ i < 2 - 1, ∀ u, RunsTo i t0 u → pollTick s.cfg i = true → sample u = true) ∧
         (∀ u, RunsTo (2 - 1) t0 u → sample u = false)) ∧
    (let s := readIn2 Config.bridgeDefault
     Inv s ∧ s.cfg.kind = .bridge ∧ s.bridge.bfsm = .bWait ∧ s.core.fsm = .idle ∧
       s.core.sleep = false ∧ pollTick s.cfg (2 - 1) = true ∧
       (∀ n, readyBound s.cfg = some n → 2 ≤ n) ∧
       NoReset s (1 + 2 + trainTicks s.cfg s.core.gainN) ∧
       ∃ t0, exec (.br 7) s = .next t0 ∧
         (∀ i < 2 - 1, ∀ u, RunsTo i t0 u → pollTick s.cfg i = true → sample u = true) ∧
         (∀ u, RunsTo (2 - 1) t0 u → sample u = false)) := by
  have one {t u v : State} (h : RunsTo 1 t u) (hs : step t = .next v) : u = v := by
    obtain ⟨w, hw, hu⟩ := runsTo_succ.1 h
    rw [hs] at hw
    cases hw
    exact runsTo_zero.1 hu
  refine ⟨⟨inv_of_check rfl, rfl, rfl, rfl, by decide, fun n h => (by cases h), readIn2_noReset _,
    _, rfl, fun i hi u h _ => ?_, fun u h => ?_⟩,
    ⟨inv_of_check rfl, rfl, rfl, rfl, rfl, by decide, fun n h => (by cases h; decide),
      readIn2_noReset _, _, rfl, fun i hi u h _ => ?_, fun u h => ?_⟩⟩
  · obtain rfl : i = 0 := by omega
    cases h
    rfl
  · rw [one (v := quietTick _) h rfl]
    rfl
  · obtain rfl : i = 0 := by omega
    cases h
    rfl
  · rw [one (v := quietTick _) h rfl]
    rfl

/-- In the bridge a transaction arrives meanwhile. -/
theorem witness_SleepDuration :
    (let s := at0 Config.coreDefault (eng .idle false) Chip.start (List.replicate 82 (quiet true))
     Inv s ∧ s.cfg.kind = .core ∧ s.core.fsm = .idle ∧ s.core.sleep = false ∧
       NoReset s (1 + s.cfg.tLow + s.cfg.tSleepHold)) ∧
    (let s := { holding 0x001 (eng .idle false) with
        inputs := List.replicate 82 (quiet true), bus := ⟨[⟨0, 0x100, 4⟩], .quiet⟩ }
     Inv s ∧ s.cfg.kind = .bridge ∧ s.bridge.bfsm = .bWait ∧
       LegalTraffic s (1 + s.cfg.tLow + s.cfg.tSleepHold) ∧ s.core.fsm = .idle ∧
       s.core.sleep = false ∧ NoReset s (1 + s.cfg.tLow + s.cfg.tSleepHold)) := by
  refine ⟨⟨inv_of_check rfl, rfl, rfl, rfl, noReset_of (.inr (.inl rfl))⟩,
    ⟨inv_of_check rfl, rfl, rfl, ⟨by decide, fun i hi x hx _ => ?_⟩, rfl, rfl,
      noReset_of (.inr (.inl rfl))⟩⟩
  have hi' : i < 82 := hi
  have hn : (inputAt { holding 0x001 (eng .idle false) with
      inputs := List.replicate 82 (quiet true), bus := ⟨[⟨0, 0x100, 4⟩], .quiet⟩ } i).txn = none := by
    unfold inputAt
    rw [List.getElem?_replicate_of_lt hi']
    rfl
  rw [hn] at hx
  cases hx

/-- A bound of 1 tick; and the bridge's 100000 ticks, the chip absent. -/
theorem witness_WaitTimesOutExactly :
    (let s := waiting .rd (some 1) 0 [quiet true]
     Inv s ∧ ReadRuns s ∧ readyBound s.cfg = some 1 ∧ s.core.fsm = .wait ∧
       s.core.pollc = 0 ∧ s.core.tmo = 0 ∧ NoReset s 1 ∧
       (∀ i < 1, ∀ u, RunsTo i s u → pollTick s.cfg i = true → sample u = true)) ∧
    (let s := deadBridge
     Inv s ∧ ReadRuns s ∧ readyBound s.cfg = some 100000 ∧ s.core.fsm = .wait ∧
       s.core.pollc = 0 ∧ s.core.tmo = 0 ∧ NoReset s 100000 ∧
       (∀ i < 100000, ∀ u, RunsTo i s u → pollTick s.cfg i = true → sample u = true)) := by
  refine ⟨⟨inv_of_check rfl, .inl rfl, rfl, rfl, rfl, rfl, noReset_of (.inr (.inl rfl)), ?_⟩,
    ⟨inv_of_check (by decide), .inr rfl, rfl, rfl, rfl, rfl, noReset_of (.inl rfl), ?_⟩⟩
  · intro i hi u h _
    obtain rfl : i = 0 := by omega
    cases h
    rfl
  · intro i hi u h _
    obtain ⟨hc, hi'⟩ := runsTo_inputs h
    have hd : (input u).dout = none :=
      (congrArg TickIn.dout (hi' 0)).trans (unscripted_of (s := deadBridge) rfl i hi)
    have hp : u.cfg.chipPresent = false := by rw [hc]; rfl
    simp [sample, hd, chipLevel, hp]

theorem witness_UnboundedWaitGoesOn :
    let s := waiting .rdy none 0 [quiet true]
    Inv s ∧ readyBound s.cfg = none ∧ s.core.fsm = .wait ∧
      s.core.pollc = 0 ∧ NoReset s 1 ∧
      (∀ i < 1, ∀ u, RunsTo i s u → pollTick s.cfg i = true → sample u = true) := by
  refine ⟨inv_of_check rfl, rfl, rfl, rfl, noReset_of (.inr (.inl rfl)), ?_⟩
  intro i hi u h _
  obtain rfl : i = 0 := by omega
  cases h
  rfl

end Sys2Proof.Tests
end

section
/-! The moves of the engine: what one tick without reset does to its registers, said once for every
step of either configuration (40_pin_protocol.md, 41_core_requests.md). -/

namespace Sys2Proof.Machine

/-- What one tick without reset can do to the engine's registers: a constructor per branch of the
tick rules (R80 to R99) and of the acceptance rules (R110 to R123), with its guard. `d` is the sample
of the tick and `f` the outcome flags after it. Of the flags a move says only what a timeout (R86) and
a READ refused while asleep (R113) raise: `quietEngine_flags` and `step_of_busy` say what a busy tick
does to them. -/
inductive Moves (p : Config) (d : Bool) (e : Engine) : Engine → Prop where
  | rests (f : OutcomeFlags) (hi : e.fsm = .idle) : Moves p d e { e with doutLast := d, flags := f }
  | waitBegins (f : OutcomeFlags) (m : WaitMode) (hi : e.fsm = .idle) (hs : e.sleep = false) :
      Moves p d e { e with
        doutLast := d, flags := f, mode := m, pollc := 0, tmo := 0, fsm := .wait }
  | readRefused (f : OutcomeFlags) (hi : e.fsm = .idle) (hs : e.sleep = true)
      (hf : f.sleepErr = true) : Moves p d e { e with doutLast := d, flags := f, result := 0 }
  | gainSet (f : OutcomeFlags) (n : Byte) (hi : e.fsm = .idle)
      (hn : p.gainCheck = true → gainInRange n = true) :
      Moves p d e { e with doutLast := d, flags := f, gainN := n }
  | sleepBegins (f : OutcomeFlags) (hi : e.fsm = .idle) (hs : e.sleep = false) :
      Moves p d e { e with doutLast := d, flags := f, sck := false, c := 1, fsm := .slpLow }
  | wakes (f : OutcomeFlags) (hi : e.fsm = .idle) (hs : e.sleep = true) :
      Moves p d e { e with doutLast := d, flags := f, sck := false, sleep := false }
  | trainBegins (f : OutcomeFlags) (hw : e.fsm = .wait) (hr : pollReady d e = true)
      (hm : e.mode = .rd) :
      Moves p d e { e with
        doutLast := d, flags := f, shreg := 0, k := 0, c := 1, sck := true, fsm := .high }
  | readyFound (f : OutcomeFlags) (hw : e.fsm = .wait) (hr : pollReady d e = true)
      (hm : e.mode = .rdy) : Moves p d e { e with doutLast := d, flags := f, fsm := .idle }
  | readTimesOut (f : OutcomeFlags) (hw : e.fsm = .wait) (hr : pollReady d e = false)
      (ht : timeoutDue p e = true) (hm : e.mode = .rd) (hf : f.timeout = true) :
      Moves p d e { e with doutLast := d, flags := f, result := 0, fsm := .idle }
  | readyTimesOut (f : OutcomeFlags) (hw : e.fsm = .wait) (hr : pollReady d e = false)
      (ht : timeoutDue p e = true) (hm : e.mode = .rdy) (hf : f.timeout = true) :
      Moves p d e { e with doutLast := d, flags := f, fsm := .idle }
  | waitsOn (f : OutcomeFlags) (hw : e.fsm = .wait) (hr : pollReady d e = false)
      (ht : timeoutDue p e = false) :
      Moves p d e { e with
        doutLast := d, flags := f, pollc := (e.pollc + 1) % p.poll
        tmo := if readyBound p = none then e.tmo else e.tmo + 1 }
  | highOn (f : OutcomeFlags) (hh : e.fsm = .high) (hc : e.c < p.tHigh) :
      Moves p d e { e with doutLast := d, flags := f, c := e.c + 1 }
  | bitCaptured (f : OutcomeFlags) (hh : e.fsm = .high) (hc : p.tHigh ≤ e.c) (hk : e.k.toNat < 24) :
      Moves p d e { e with
        doutLast := d, flags := f, shreg := shiftIn e.shreg d, sck := false, c := 1, fsm := .low }
  | gainPulseEnds (f : OutcomeFlags) (hh : e.fsm = .high) (hc : p.tHigh ≤ e.c)
      (hk : 24 ≤ e.k.toNat) :
      Moves p d e { e with doutLast := d, flags := f, sck := false, c := 1, fsm := .low }
  | lowOn (f : OutcomeFlags) (hl : e.fsm = .low) (hc : e.c < p.tLow) :
      Moves p d e { e with doutLast := d, flags := f, c := e.c + 1 }
  | nextPulse (f : OutcomeFlags) (hl : e.fsm = .low) (hc : p.tLow ≤ e.c)
      (hk : e.k.toNat + 1 < totalPulses e.gainN) :
      Moves p d e { e with
        doutLast := d, flags := f, k := e.k + 1, c := 1, sck := true, fsm := .high }
  | readingDone (f : OutcomeFlags) (hl : e.fsm = .low) (hc : p.tLow ≤ e.c)
      (hk : totalPulses e.gainN ≤ e.k.toNat + 1) :
      Moves p d e { e with doutLast := d, flags := f, result := sext32 e.shreg, fsm := .idle }
  | slpLowOn (f : OutcomeFlags) (hl : e.fsm = .slpLow) (hc : e.c < p.tLow) :
      Moves p d e { e with doutLast := d, flags := f, c := e.c + 1 }
  | holdBegins (f : OutcomeFlags) (hl : e.fsm = .slpLow) (hc : p.tLow ≤ e.c) :
      Moves p d e { e with doutLast := d, flags := f, sck := true, c := 1, fsm := .slpHold }
  | holdOn (f : OutcomeFlags) (hh : e.fsm = .slpHold) (hc : e.c < p.tSleepHold) :
      Moves p d e { e with doutLast := d, flags := f, c := e.c + 1 }
  | holdEnds (f : OutcomeFlags) (hh : e.fsm = .slpHold) (hc : p.tSleepHold ≤ e.c) :
      Moves p d e { e with doutLast := d, flags := f, sleep := true, fsm := .idle }

section Ticks
variable {p : Config} {d : Bool} {e e' : Engine} {f : Engine → Engine}

theorem setFlag_timeout (x : ErrorFlag) {f : OutcomeFlags} (h : f.timeout = true) :
    (setFlag x f).timeout = true := by
  cases x <;> simp [setFlag, h]

theorem setFlag_sleepErr (x : ErrorFlag) {f : OutcomeFlags} (h : f.sleepErr = true) :
    (setFlag x f).sleepErr = true := by
  cases x <;> simp [setFlag, h]

/-- R111, R140: a condition raised on top of a move leaves a move. -/
theorem Moves.raised (x : ErrorFlag) (h : Moves p d e e') : Moves p d e (raise x e') := by
  cases h with
  | rests f hi => exact .rests _ hi
  | waitBegins f m hi hs => exact .waitBegins _ m hi hs
  | readRefused f hi hs hf => exact .readRefused _ hi hs (setFlag_sleepErr x hf)
  | gainSet f n hi hn => exact .gainSet _ n hi hn
  | sleepBegins f hi hs => exact .sleepBegins _ hi hs
  | wakes f hi hs => exact .wakes _ hi hs
  | trainBegins f hw hr hm => exact .trainBegins _ hw hr hm
  | readyFound f hw hr hm => exact .readyFound _ hw hr hm
  | readTimesOut f hw hr ht hm hf =>
    exact .readTimesOut _ hw hr ht hm (setFlag_timeout x hf)
  | readyTimesOut f hw hr ht hm hf =>
    exact .readyTimesOut _ hw hr ht hm (setFlag_timeout x hf)
  | waitsOn f hw hr ht => exact .waitsOn _ hw hr ht
  | highOn f hh hc => exact .highOn _ hh hc
  | bitCaptured f hh hc hk => exact .bitCaptured _ hh hc hk
  | gainPulseEnds f hh hc hk => exact .gainPulseEnds _ hh hc hk
  | lowOn f hl hc => exact .lowOn _ hl hc
  | nextPulse f hl hc hk => exact .nextPulse _ hl hc hk
  | readingDone f hl hc hk => exact .readingDone _ hl hc hk
  | slpLowOn f hl hc => exact .slpLowOn _ hl hc
  | holdBegins f hl hc => exact .holdBegins _ hl hc
  | holdOn f hh hc => exact .holdOn _ hh hc
  | holdEnds f hh hc => exact .holdEnds _ hh hc

theorem waitOn_eq : waitOn p e = { e with
    pollc := (e.pollc + 1) % p.poll
    tmo := if readyBound p = none then e.tmo else e.tmo + 1 } := by
  unfold waitOn
  cases readyBound p with
  | none => rfl
  | some n => rfl

@[simp] theorem pollReady_latch (b : Bool) : pollReady d (latch b e) = pollReady d e := rfl

@[simp] theorem timeoutDue_latch (b : Bool) : timeoutDue p (latch b e) = timeoutDue p e := rfl

theorem moves_waitTick (hw : e.fsm = .wait) : Moves p d e (waitTick p d (latch d e)) := by
  rw [waitTick, pollReady_latch, timeoutDue_latch]
  split
  · next hr =>
    unfold waitReady
    split
    · next hm => exact .trainBegins _ hw hr hm
    · next hm => exact .readyFound _ hw hr hm
  · next hr =>
    rw [Bool.not_eq_true] at hr
    split
    · next ht =>
      unfold waitTimedOut
      split
      · next hm => exact .readTimesOut _ hw hr ht hm rfl
      · next hm => exact .readyTimesOut _ hw hr ht hm rfl
    · next ht => exact waitOn_eq ▸ Moves.waitsOn _ hw hr (Bool.not_eq_true _ ▸ ht)

theorem moves_highTick (hh : e.fsm = .high) : Moves p d e (highTick p d (latch d e)) := by
  unfold highTick
  split
  · next hc => exact .highOn _ hh hc
  · next hc =>
    split
    · next hk => exact .bitCaptured _ hh (Nat.le_of_not_lt hc) hk
    · next hk => exact .gainPulseEnds _ hh (Nat.le_of_not_lt hc) (Nat.le_of_not_lt hk)

theorem moves_lowTick (hl : e.fsm = .low) : Moves p d e (lowTick p (latch d e)) := by
  unfold lowTick
  split
  · next hc => exact .lowOn _ hl hc
  · next hc =>
    split
    · next hk => exact .nextPulse _ hl (Nat.le_of_not_lt hc) hk
    · next hk => exact .readingDone _ hl (Nat.le_of_not_lt hc) (Nat.le_of_not_lt hk)

theorem moves_slpLowTick (hl : e.fsm = .slpLow) : Moves p d e (slpLowTick p (latch d e)) := by
  unfold slpLowTick
  split
  · next hc => exact .slpLowOn _ hl hc
  · next hc => exact .holdBegins _ hl (Nat.le_of_not_lt hc)

theorem moves_slpHoldTick (hh : e.fsm = .slpHold) : Moves p d e (slpHoldTick p (latch d e)) := by
  unfold slpHoldTick
  split
  · next hc => exact .holdOn _ hh hc
  · next hc => exact .holdEnds _ hh (Nat.le_of_not_lt hc)

/-- R80 to R99: the engine's tick with no request present is a move. -/
theorem moves_quietEngine : Moves p d e (quietEngine p d e) := by
  unfold quietEngine pinTick
  rw [latch_fsm]
  cases h : e.fsm with
  | idle => exact .rests _ h
  | wait => exact moves_waitTick h
  | high => exact moves_highTick h
  | low => exact moves_lowTick h
  | slpLow => exact moves_slpLowTick h
  | slpHold => exact moves_slpHoldTick h

/-- R110 to R123: the tick in which an idle engine accepts a request is a move. -/
theorem moves_accepted (hf : Accepted p f) (hi : e.fsm = .idle) :
    Moves p d e (f (clearFlags (latch d e))) := by
  cases hf with
  | read =>
    unfold acceptRead
    split
    · next hs => exact .readRefused _ hi hs rfl
    · next hs => exact .waitBegins _ .rd hi (Bool.not_eq_true _ ▸ hs)
  | waitrdy =>
    unfold acceptWaitrdy
    split
    · exact .rests _ hi
    · next hs => exact .waitBegins _ .rdy hi (Bool.not_eq_true _ ▸ hs)
  | setgain n =>
    unfold acceptSetgain
    split
    · exact .rests _ hi
    · next hn => exact .gainSet _ n hi (by simpa using hn)
  | sleep =>
    unfold acceptSleep
    split
    · exact .rests _ hi
    · next hs => exact .sleepBegins _ hi (Bool.not_eq_true _ ▸ hs)
  | wake =>
    unfold acceptWake
    split
    · next hs => exact .wakes _ hi hs
    · exact .rests _ hi
  | reserved => exact .rests _ hi

/-- The engine's tick in any step without reset is a move. -/
theorem EngineStep.moves {s : State} (h : EngineStep s e) : Moves s.cfg (sample s) s.core e := by
  cases h with
  | quiet => exact moves_quietEngine
  | request f hf hk =>
    by_cases hi : s.core.fsm = .idle
    · exact requestEngine_of_idle hi ▸ moves_accepted hf hi
    · exact requestEngine_of_busy hi ▸ moves_quietEngine.raised .overrun
  | presented f hk hb hi hf =>
    refine moves_accepted ?_ hi
    rcases hf with rfl | rfl | rfl | ⟨n, -, rfl⟩
    · exact .read
    · exact .sleep
    · exact .wake
    · exact .setgain n

end Ticks
end Sys2Proof.Machine
end

section
/-! What every move keeps of the engine's own invariants: clock levels, gain, RESULT, SHREG and the
counters (10_state.md section 7). -/

namespace Sys2Proof.Machine

section Engine
variable {p : Config} {d : Bool} {e e' : Engine}

/-- The levels of SCK and SLEEP that an FSM state goes with (R41, R82, R98, R99). -/
def Fsm.Levels : Fsm → Bool → Bool → Prop
  | .idle, sck, sleep => sck = sleep
  | .wait, sck, sleep => sck = false ∧ sleep = false
  | .high, sck, sleep => sck = true ∧ sleep = false
  | .low, sck, sleep => sck = false ∧ sleep = false
  | .slpLow, sck, sleep => sck = false ∧ sleep = false
  | .slpHold, sck, sleep => sck = true ∧ sleep = false

theorem clockLevels_iff : ClockLevels e ↔ e.fsm.Levels e.sck e.sleep := by
  constructor
  · rintro ⟨hidle, hawake, hup, hdown⟩
    cases hf : e.fsm <;> simp_all [Fsm.Levels]
  · intro h
    cases hf : e.fsm <;> simp only [hf, Fsm.Levels] at h <;> constructor <;> simp_all

theorem clockLevels_reset : ClockLevels (Engine.reset p) := clockLevels_iff.2 rfl

/-- R29, R30: every move leaves SCK and SLEEP at the levels of the FSM state it leads to. -/
theorem Moves.clockLevels (h : Moves p d e e') (hc : ClockLevels e) : ClockLevels e' := by
  rw [clockLevels_iff] at hc ⊢
  cases h <;> simp_all [Fsm.Levels]

theorem Moves.gainLegal (h : Moves p d e e') (hg : GainLegal p e) : GainLegal p e' := by
  cases h with
  | gainSet f n hi hn => exact hn
  | _ => exact hg

theorem extractLsb'_sext32 (v : U24) : (sext32 v).extractLsb' 0 24 = v := by
  apply BitVec.eq_of_getLsbD_eq
  intro i hi
  have hi' : i < 32 := hi.trans (by decide)
  rw [BitVec.getLsbD_extractLsb', sext32, BitVec.getLsbD_signExtend]
  simp [hi, hi']

theorem resultIsSample_zero : (0 : Sample32) = sext32 ((0 : Sample32).extractLsb' 0 24) := by decide

theorem Moves.resultIsSample (h : Moves p d e e') (hr : ResultIsSample e) : ResultIsSample e' := by
  cases h with
  | readRefused f hi hs hf => exact resultIsSample_zero
  | readTimesOut f hw hq ht hm hf => exact resultIsSample_zero
  | readingDone f hl hc hk => exact congrArg sext32 (extractLsb'_sext32 e.shreg).symm
  | _ => exact hr

theorem toNat_shiftIn (v : U24) (b : Bool) :
    (shiftIn v b).toNat = 2 * (v.toNat % 2 ^ 23) + b.toNat := by
  have hb : (BitVec.ofBool b).toNat = b.toNat := BitVec.toNat_ofBool b
  rw [shiftIn, BitVec.toNat_append, BitVec.extractLsb'_toNat, hb, Nat.shiftLeft_eq, Nat.mul_comm,
    ← Nat.two_pow_add_eq_or_of_lt (Bool.toNat_lt b), Nat.shiftRight_zero]

/-- R90: one more captured bit, one more bit of SHREG in use. -/
theorem shiftIn_lt {v : U24} {n : Nat} (b : Bool) (h : v.toNat < 2 ^ n) :
    (shiftIn v b).toNat < 2 ^ (n + 1) := by
  have hb := Bool.toNat_lt b
  have hm := Nat.mod_le v.toNat (2 ^ 23)
  rw [toNat_shiftIn, Nat.pow_succ]
  omega

/-- K + 1 does not overflow, since a train has at most 24 + 255 pulses (R32, R93). -/
theorem toNat_k_succ (hk : e.k.toNat + 1 < totalPulses e.gainN) :
    (e.k + 1).toNat = e.k.toNat + 1 := by
  have hg := e.gainN.isLt
  unfold totalPulses at hk
  bv_omega

theorem shiftBounded_of_full (h : capturedBits e = 24) : ShiftBounded e := by
  unfold ShiftBounded
  rw [h]
  exact e.shreg.isLt

theorem Moves.shiftBounded (h : Moves p d e e') (hs : ShiftBounded e) : ShiftBounded e' := by
  cases h with
  | trainBegins f hw hr hm => exact (by decide : (0 : U24).toNat < 2 ^ min 24 (0 : BitVec 9).toNat)
  | bitCaptured f hh hc hk =>
    have hv : e.shreg.toNat < 2 ^ e.k.toNat := by
      simpa [ShiftBounded, capturedBits, hh, Nat.min_eq_right hk.le] using hs
    have := shiftIn_lt d hv
    simpa [ShiftBounded, capturedBits, Nat.min_eq_right (Nat.succ_le_of_lt hk)] using this
  | gainPulseEnds f hh hc hk =>
    exact shiftBounded_of_full (Nat.min_eq_left (Nat.le_succ_of_le hk))
  | nextPulse f hl hc hk =>
    have hv : e.shreg.toNat < 2 ^ min 24 (e.k.toNat + 1) := by
      simpa only [ShiftBounded, capturedBits, hl] using hs
    rwa [← toNat_k_succ hk] at hv
  | waitBegins | sleepBegins | readyFound | readTimesOut | readyTimesOut | readingDone
  | holdBegins | holdEnds => exact shiftBounded_of_full rfl
  | _ => exact hs

/-- The most that C can be in an FSM state (R33). -/
def Fsm.phaseTicks (p : Config) : Fsm → Nat
  | .idle => max p.tHigh (max p.tLow p.tSleepHold)
  | .wait => max p.tHigh (max p.tLow p.tSleepHold)
  | .high => p.tHigh
  | .low => p.tLow
  | .slpLow => p.tLow
  | .slpHold => p.tSleepHold

theorem Fsm.phaseTicks_le (f : Fsm) : f.phaseTicks p ≤ max p.tHigh (max p.tLow p.tSleepHold) := by
  cases f <;> simp [Fsm.phaseTicks]

theorem counterRanges_iff : CounterRanges p e ↔
    1 ≤ e.c ∧ e.c ≤ e.fsm.phaseTicks p ∧
      (e.fsm = .high ∨ e.fsm = .low → e.k.toNat ≤ 23 + e.gainN.toNat) ∧
      e.pollc < p.poll ∧ ∀ n, readyBound p = some n → e.tmo < n := by
  constructor
  · rintro ⟨hpos, hhigh, hlow, hhold, hmax, hk, hpoll, htmo⟩
    refine ⟨hpos, ?_, hk, hpoll, htmo⟩
    cases hf : e.fsm with
    | idle => exact hmax
    | wait => exact hmax
    | high => exact hhigh hf
    | low => exact hlow (.inl hf)
    | slpLow => exact hlow (.inr hf)
    | slpHold => exact hhold hf
  · rintro ⟨hpos, hc, hk, hpoll, htmo⟩
    have hmax := hc.trans e.fsm.phaseTicks_le
    refine ⟨hpos, fun hf => ?_, ?_, fun hf => ?_, hmax, hk, hpoll, htmo⟩
    · rwa [hf] at hc
    · rintro (hf | hf) <;> rwa [hf] at hc
    · rwa [hf] at hc

theorem counterRanges_reset (hl : configLegal p = true) : CounterRanges p (Engine.reset p) := by
  obtain ⟨_, hH, _, _, _, hpoll, hb, _⟩ := configLegal_ranges hl
  exact counterRanges_iff.2 ⟨Nat.le_refl 1, le_max_of_le_left hH, by simp [Engine.reset], hpoll, hb⟩

theorem timeoutDue_eq_false_iff :
    timeoutDue p e = false ↔ ∀ n, readyBound p = some n → e.tmo + 1 < n := by
  unfold timeoutDue
  cases readyBound p with
  | none => simp
  | some n => simp

/-- R33: C starts each phase at 1 and does not pass its length. -/
theorem Moves.c_mem (hl : configLegal p = true) (h : Moves p d e e') (hpos : 1 ≤ e.c)
    (hc : e.c ≤ e.fsm.phaseTicks p) : 1 ≤ e'.c ∧ e'.c ≤ e'.fsm.phaseTicks p := by
  obtain ⟨_, hhigh, _, hlow, _⟩ := configLegal_ranges hl
  have hhold := configLegal_hold hl
  have hmax := hc.trans e.fsm.phaseTicks_le
  cases h with
  | trainBegins | nextPulse => exact ⟨Nat.le_refl 1, hhigh⟩
  | sleepBegins | bitCaptured | gainPulseEnds => exact ⟨Nat.le_refl 1, hlow⟩
  | holdBegins => exact ⟨Nat.le_refl 1, hhold⟩
  | highOn f hf hlt | lowOn f hf hlt | slpLowOn f hf hlt | holdOn f hf hlt =>
    exact ⟨Nat.le_add_left 1 e.c, hf ▸ hlt⟩
  | waitBegins | readyFound | readTimesOut | readyTimesOut | readingDone | holdEnds =>
    exact ⟨hpos, hmax⟩
  | _ => exact ⟨hpos, hc⟩

/-- R93: K stays below the number of pulses of the train. -/
theorem Moves.k_train (h : Moves p d e e')
    (hk : e.fsm = .high ∨ e.fsm = .low → e.k.toNat ≤ 23 + e.gainN.toNat) :
    e'.fsm = .high ∨ e'.fsm = .low → e'.k.toNat ≤ 23 + e'.gainN.toNat := by
  cases h with
  | trainBegins => exact fun _ => Nat.zero_le _
  | nextPulse f hf hc hlt =>
    have hk' : (e.k + 1).toNat ≤ 23 + e.gainN.toNat := by
      rw [toNat_k_succ hlt]
      unfold totalPulses at hlt
      omega
    exact fun _ => hk'
  | bitCaptured f hf | gainPulseEnds f hf => exact fun _ => hk (.inl hf)
  | gainSet f n hi hn => simp [hi]
  | waitBegins | sleepBegins | readyFound | readTimesOut | readyTimesOut | readingDone
  | holdBegins | holdEnds => simp
  | _ => exact hk

/-- R34: POLLC counts modulo P_POLL, and TMO stays below the readiness bound. -/
theorem Moves.pollc_tmo (hl : configLegal p = true) (h : Moves p d e e') (hpoll : e.pollc < p.poll)
    (htmo : ∀ n, readyBound p = some n → e.tmo < n) :
    e'.pollc < p.poll ∧ ∀ n, readyBound p = some n → e'.tmo < n := by
  obtain ⟨_, _, _, _, _, hpos, hb, _⟩ := configLegal_ranges hl
  cases h with
  | waitBegins => exact ⟨hpos, hb⟩
  | waitsOn f hw hr ht =>
    refine ⟨Nat.mod_lt _ hpos, fun n hn => ?_⟩
    simpa [hn] using timeoutDue_eq_false_iff.1 ht n hn
  | _ => exact ⟨hpoll, htmo⟩

theorem Moves.counterRanges (hl : configLegal p = true) (h : Moves p d e e')
    (hc : CounterRanges p e) : CounterRanges p e' := by
  rw [counterRanges_iff] at hc ⊢
  obtain ⟨hpos, hphase, hk, hpoll, htmo⟩ := hc
  obtain ⟨hpos', hphase'⟩ := h.c_mem hl hpos hphase
  exact ⟨hpos', hphase', h.k_train hk, h.pollc_tmo hl hpoll htmo⟩

end Engine

end Sys2Proof.Machine
end

section
/-! The chip agent follows every move of the engine, and a reset (60_exceptions.md R150 to R156,
R171). -/

namespace Sys2Proof.Machine

/-- No shift is in progress. -/
def ChipPhase.AtRest : ChipPhase → Prop
  | .converting => True
  | .ready _ => True
  | .shifting _ => False
  | .uncertain => True

/-- A reading may be in progress. -/
def ChipPhase.InTrain : ChipPhase → Prop
  | .converting => False
  | .ready _ => False
  | .shifting _ => True
  | .uncertain => True

theorem ChipPhase.atRest_iff (x : ChipPhase) : x.AtRest ↔ ∀ v, x ≠ .shifting v := by
  cases x <;> simp [ChipPhase.AtRest]

theorem ChipPhase.inTrain_iff (x : ChipPhase) :
    x.InTrain ↔ x = .uncertain ∨ ∃ v, x = .shifting v := by
  cases x <;> simp [ChipPhase.InTrain]

/-- Awake, with SCK LOW. -/
def Chip.Low (c : Chip) : Prop := c.asleep = false ∧ c.hold = 0

/-- The chip is in pulse `k` of a reading, counted from 0. -/
def Chip.Reads (k : Nat) (c : Chip) : Prop := c.pulses = k + 1 ∧ c.phase.InTrain

/-- What `ChipAgrees` comes to, FSM state by FSM state. -/
def ChipFits (e : Engine) (c : Chip) : Prop :=
  match e.fsm with
  | .idle => (if e.sleep then c.asleep = true else c.Low) ∧ c.phase.AtRest
  | .wait => c.Low ∧ c.phase.AtRest
  | .high => c.hold = e.c ∧ c.asleep = false ∧ c.Reads e.k.toNat
  | .low => c.Low ∧ c.Reads e.k.toNat
  | .slpLow => c.Low ∧ c.phase.AtRest
  | .slpHold => c.hold = e.c ∧ c.phase.AtRest

theorem chipAgrees_iff {s : State} (hc : ClockLevels s.core) :
    ChipAgrees s ↔ ChipFits s.core s.chip := by
  rw [clockLevels_iff] at hc
  constructor
  · rintro ⟨hlow, hasleep, hhold, hhigh, hpulses, htrain, hrest⟩
    rw [← ChipPhase.atRest_iff] at hrest
    rw [← ChipPhase.inTrain_iff] at htrain
    cases hf : s.core.fsm with
    | idle =>
      cases hs : s.core.sleep <;> simp_all [ChipFits, Fsm.Levels, Chip.Low]
    | _ => simp_all [ChipFits, Fsm.Levels, Chip.Low, Chip.Reads]
  · intro h
    cases hf : s.core.fsm with
    | idle =>
      cases hs : s.core.sleep <;> constructor <;>
        simp_all [ChipFits, Fsm.Levels, Chip.Low, ChipPhase.atRest_iff]
    | _ =>
      constructor <;>
        simp_all [ChipFits, Fsm.Levels, Chip.Low, Chip.Reads, ChipPhase.atRest_iff,
          ChipPhase.inTrain_iff]

section Pins
variable {n : Nat} {pre post : Engine} {c : Chip}

/-- R150: a sample changes nothing of the chip but a conversion that becomes ready. -/
theorem chipSampled_frame (sck d : Bool) (v : U24) (c : Chip) :
    ∃ x : ChipPhase, chipSampled sck d v c = { c with phase := x } ∧
      (x.AtRest ↔ c.phase.AtRest) ∧ (x.InTrain ↔ c.phase.InTrain) := by
  unfold chipSampled
  cases hp : c.phase with
  | converting =>
    dsimp only
    split
    · exact ⟨_, rfl, Iff.rfl, Iff.rfl⟩
    · exact ⟨c.phase, rfl, by rw [hp], by rw [hp]⟩
  | _ => exact ⟨c.phase, rfl, by rw [hp], by rw [hp]⟩

theorem chipFits_sampled (sck d : Bool) (v : U24) (h : ChipFits pre c) :
    ChipFits pre (chipSampled sck d v c) := by
  obtain ⟨x, he, hrest, htrain⟩ := chipSampled_frame sck d v c
  rw [he]
  unfold ChipFits Chip.Reads Chip.Low at h ⊢
  simpa only [hrest, htrain] using h

theorem chipHeldLow_of_awake (h : c.asleep = false) : chipHeldLow c = { c with hold := 0 } := by
  rw [chipHeldLow, h, if_neg Bool.false_ne_true]

theorem chipHeldHigh_of_awake (h : c.asleep = false) (hn : (c.hold + 1) * n ≤ sleepThresholdNs) :
    chipHeldHigh n c = { c with hold := c.hold + 1 } := by
  simp [chipHeldHigh, h, Nat.not_lt.2 hn]

theorem chipHeldHigh_asleep (h : c.asleep = true ∨ sleepThresholdNs < (c.hold + 1) * n) :
    (chipHeldHigh n c).asleep = true := by
  simpa [chipHeldHigh] using h

theorem chipResumed_low : (chipResumed c).Low := ⟨rfl, rfl⟩

theorem chipResumed_atRest : (chipResumed c).phase.AtRest := by
  unfold chipResumed
  dsimp only
  split <;> trivial

/-- R150, R151: a rising edge begins or goes on with a reading. -/
theorem chipPulse_inTrain (first : Bool) : (chipPulse first c).phase.InTrain := by
  unfold chipPulse
  cases c.phase <;> trivial

theorem chipReadingDone_low (h : c.Low) : (chipReadingDone c).Low := by
  unfold chipReadingDone
  split <;> exact h

theorem chipReadingDone_atRest : (chipReadingDone c).phase.AtRest := by
  unfold chipReadingDone
  split <;> trivial

/-- SCK LOW after the tick, and no reading ended. -/
theorem chipEdges_of_low (hs : post.sck = false) (hf : pre.fsm = .low → post.fsm ≠ .idle) :
    chipEdges n pre post c = chipHeldLow c := by
  have hd : ¬ (pre.fsm = .low ∧ post.fsm = .idle) := fun ⟨h1, h2⟩ => hf h1 h2
  simp [chipEdges, hs, hd]

/-- The same for a chip that is awake, and saw SCK LOW before. -/
theorem chipEdges_of_stays_low (hs : post.sck = false) (hf : pre.fsm = .low → post.fsm ≠ .idle)
    (hc : c.Low) : chipEdges n pre post c = c := by
  obtain ⟨hawake, hhold⟩ := hc
  rw [chipEdges_of_low hs hf, chipHeldLow_of_awake hawake, ← hhold]

/-- SCK HIGH after the tick, and no pulse began. -/
theorem chipEdges_of_high (hs : post.sck = true) (hr : pre.sck = true ∨ post.fsm ≠ .high)
    (hf : pre.fsm ≠ .low) : chipEdges n pre post c = chipHeldHigh n c := by
  have hr' : ¬ ((pre.sck = false) ∧ post.fsm = .high) := by
    rcases hr with h | h <;> simp [h]
  simp [chipEdges, hs, hf, hr']

theorem chipFits_of_high (h : ChipFits post (chipHeldHigh n c)) (hs : post.sck = true)
    (hr : pre.sck = true ∨ post.fsm ≠ .high) (hf : pre.fsm ≠ .low) :
    ChipFits post (chipEdges n pre post c) := by
  rwa [chipEdges_of_high hs hr hf]

/-- A pulse began. -/
theorem chipEdges_of_rise (hs : pre.sck = false) (hs' : post.sck = true) (hf : post.fsm = .high) :
    chipEdges n pre post c = chipPulse (pre.fsm = .wait) (chipHeldHigh n c) := by
  simp [chipEdges, hs, hs', hf]

/-- A reading ended. -/
theorem chipEdges_of_done (hs : post.sck = false) (hf : pre.fsm = .low) (hf' : post.fsm = .idle) :
    chipEdges n pre post c = chipReadingDone (chipHeldLow c) := by
  simp [chipEdges, hs, hf, hf']

end Pins

section Moves
variable {p : Config} {d : Bool} {e e' : Engine} {c : Chip} {n : Nat}

/-- An idle engine that neither wakes the chip nor starts a request leaves it as it is. -/
theorem chipFits_idle (hc : ClockLevels e) (hi : e.fsm = .idle) (hi' : e'.fsm = .idle)
    (hsck : e'.sck = e.sck) (hsleep : e'.sleep = e.sleep) (h : ChipFits e c) :
    ChipFits e' (chipEdges n e e' c) := by
  have hlevel := hc.idle hi
  simp only [ChipFits, hi] at h
  simp only [ChipFits, hi', hsleep]
  obtain ⟨hchip, hrest⟩ := h
  cases hs : e.sleep with
  | true =>
    rw [hs, if_pos rfl] at hchip
    rw [hs] at hlevel
    rw [chipEdges_of_high (hsck.trans hlevel) (.inl hlevel) (by simp [hi])]
    exact ⟨chipHeldHigh_asleep (.inl hchip), hrest⟩
  | false =>
    rw [hs, if_neg Bool.false_ne_true] at hchip
    rw [hs] at hlevel
    rw [chipEdges_of_stays_low (hsck.trans hlevel) (by simp [hi]) hchip]
    exact ⟨hchip, hrest⟩

/-- The states in which SCK is LOW and no reading is in progress. -/
def Fsm.Quiescent (f : Fsm) : Prop := f = .idle ∨ f = .wait ∨ f = .slpLow

theorem chipFits_iff_of_quiescent (hf : e.fsm.Quiescent) (hs : e.sleep = false) :
    ChipFits e c ↔ c.Low ∧ c.phase.AtRest := by
  rcases hf with h | h | h <;> simp [ChipFits, h, hs]

theorem chipFits_quiescent (hf : e.fsm.Quiescent) (hs : e.sleep = false)
    (hf' : e'.fsm.Quiescent) (hs' : e'.sleep = false) (hsck : e'.sck = false) (h : ChipFits e c) :
    ChipFits e' (chipEdges n e e' c) := by
  rw [chipFits_iff_of_quiescent hf hs] at h
  have hlow : e.fsm = .low → e'.fsm ≠ .idle := fun hl => by simp [Fsm.Quiescent, hl] at hf
  rwa [chipFits_iff_of_quiescent hf' hs', chipEdges_of_stays_low hsck hlow h.1]

/-- R12: a pulse is too short to put the chip to sleep. -/
theorem pulse_le_threshold (hl : configLegal p = true) {i : Nat} (hi : i ≤ p.tHigh) :
    i * p.tickNs ≤ sleepThresholdNs := by
  obtain ⟨_, _, hshort, _⟩ := configLegal_ranges hl
  exact (Nat.mul_le_mul_right _ hi).trans hshort.le

/-- R12: the sleep hold is long enough to put it to sleep. -/
theorem threshold_lt_hold (hl : configLegal p = true) {i : Nat} (hi : p.tSleepHold ≤ i) :
    sleepThresholdNs < i * p.tickNs := by
  obtain ⟨_, _, _, _, hlong, _⟩ := configLegal_ranges hl
  exact lt_of_lt_of_le hlong (Nat.mul_le_mul_right _ hi)

/-- R150, R151: the first tick of a pulse, after SCK was LOW. -/
theorem chipFits_rise (hl : configLegal p = true) (hsck : e.sck = false) (hsck' : e'.sck = true)
    (hf' : e'.fsm = .high) (hc' : e'.c = 1) (hlow : c.Low)
    (hk : (if e.fsm = .wait then 1 else c.pulses + 1) = e'.k.toNat + 1) :
    ChipFits e' (chipEdges p.tickNs e e' c) := by
  obtain ⟨hawake, hhold⟩ := hlow
  obtain ⟨_, hhigh, _⟩ := configLegal_ranges hl
  have hshort : (c.hold + 1) * p.tickNs ≤ sleepThresholdNs :=
    pulse_le_threshold hl (by rw [hhold]; exact hhigh)
  rw [chipEdges_of_rise hsck hsck' hf', chipHeldHigh_of_awake hawake hshort]
  simp only [ChipFits, hf', hc']
  refine ⟨congrArg (· + 1) hhold, hawake, ?_, chipPulse_inTrain _⟩
  simpa [chipPulse] using hk

theorem Moves.chipFits (hl : configLegal p = true) (hm : Moves p d e e') (hc : ClockLevels e)
    (h : ChipFits e c) : ChipFits e' (chipEdges p.tickNs e e' c) := by
  have hlevels := clockLevels_iff.1 hc
  cases hm with
  | rests f hi => exact chipFits_idle hc hi hi rfl rfl h
  | readRefused f hi => exact chipFits_idle hc hi hi rfl rfl h
  | gainSet f n hi => exact chipFits_idle hc hi hi rfl rfl h
  | waitBegins f m hi hs =>
    have hsck : e.sck = false := (hc.idle hi).trans hs
    exact chipFits_quiescent (.inl hi) hs (.inr (.inl rfl)) hs hsck h
  | sleepBegins f hi hs =>
    exact chipFits_quiescent (.inl hi) hs (.inr (.inr rfl)) hs rfl h
  | wakes f hi hs =>
    simp only [ChipFits, hi, hs, if_true] at h
    rw [chipEdges_of_low rfl (by simp [hi]), chipHeldLow, if_pos h.1]
    simpa [ChipFits, hi] using ⟨chipResumed_low, chipResumed_atRest⟩
  | trainBegins f hw hr hq =>
    simp only [hw, Fsm.Levels] at hlevels
    simp only [ChipFits, hw] at h
    exact chipFits_rise hl hlevels.1 rfl rfl rfl h.1 (by simp [hw])
  | readyFound f hw | readTimesOut f hw | readyTimesOut f hw =>
    simp only [hw, Fsm.Levels] at hlevels
    exact chipFits_quiescent (.inr (.inl hw)) hlevels.2 (.inl rfl) hlevels.2 hlevels.1 h
  | waitsOn f hw =>
    simp only [hw, Fsm.Levels] at hlevels
    exact chipFits_quiescent (.inr (.inl hw)) hlevels.2 (.inr (.inl hw)) hlevels.2 hlevels.1 h
  | highOn f hh hlt =>
    simp only [hh, Fsm.Levels] at hlevels
    simp only [ChipFits, hh] at h
    obtain ⟨hhold, hawake, hreads⟩ := h
    have hshort : (c.hold + 1) * p.tickNs ≤ sleepThresholdNs :=
      pulse_le_threshold hl (by rw [hhold]; exact hlt)
    refine chipFits_of_high ?_ hlevels.1 (.inl hlevels.1) (by simp [hh])
    simp only [chipHeldHigh_of_awake hawake hshort, ChipFits, hh]
    exact ⟨congrArg (· + 1) hhold, hawake, hreads⟩
  | bitCaptured f hh | gainPulseEnds f hh =>
    simp only [ChipFits, hh] at h
    obtain ⟨hhold, hawake, hreads⟩ := h
    rw [chipEdges_of_low rfl (by simp), chipHeldLow_of_awake hawake]
    exact ⟨⟨hawake, rfl⟩, hreads⟩
  | lowOn f hf hlt =>
    simp only [hf, Fsm.Levels] at hlevels
    simp only [ChipFits, hf] at h
    rw [chipEdges_of_stays_low]
    · simpa only [ChipFits, hf] using h
    · exact hlevels.1
    · simp [hf]
    · exact h.1
  | nextPulse f hf hlt hk =>
    simp only [hf, Fsm.Levels] at hlevels
    simp only [ChipFits, hf] at h
    obtain ⟨hlow, hpulses, htrain⟩ := h
    refine chipFits_rise hl hlevels.1 rfl rfl rfl hlow ?_
    rw [if_neg (by simp [hf]), hpulses]
    exact congrArg (· + 1) (toNat_k_succ hk).symm
  | readingDone f hf =>
    simp only [hf, Fsm.Levels] at hlevels
    simp only [ChipFits, hf] at h
    obtain ⟨hlow, _⟩ := h
    rw [chipEdges_of_done, chipHeldLow_of_awake hlow.1]
    · simp only [ChipFits, hlevels.2, if_neg Bool.false_ne_true]
      exact ⟨chipReadingDone_low ⟨hlow.1, rfl⟩, chipReadingDone_atRest⟩
    · exact hlevels.1
    · exact hf
    · rfl
  | slpLowOn f hf =>
    simp only [hf, Fsm.Levels] at hlevels
    exact chipFits_quiescent (.inr (.inr hf)) hlevels.2 (.inr (.inr hf)) hlevels.2 hlevels.1 h
  | holdBegins f hf =>
    simp only [ChipFits, hf] at h
    obtain ⟨⟨_, hhold⟩, hrest⟩ := h
    exact chipFits_of_high ⟨congrArg (· + 1) hhold, hrest⟩ rfl (.inr (by simp)) (by simp [hf])
  | holdOn f hh =>
    simp only [hh, Fsm.Levels] at hlevels
    simp only [ChipFits, hh] at h
    refine chipFits_of_high ?_ hlevels.1 (.inl hlevels.1) (by simp [hh])
    simp only [ChipFits, hh]
    exact ⟨congrArg (· + 1) h.1, h.2⟩
  | holdEnds f hh hle =>
    simp only [hh, Fsm.Levels] at hlevels
    simp only [ChipFits, hh] at h
    obtain ⟨hhold, hrest⟩ := h
    have hlong : sleepThresholdNs < (c.hold + 1) * p.tickNs :=
      threshold_lt_hold hl (by rw [hhold]; exact hle.trans (Nat.le_succ _))
    exact chipFits_of_high ⟨chipHeldHigh_asleep (.inr hlong), hrest⟩ hlevels.1 (.inl hlevels.1)
      (by simp [hh])

/-- R171, R172: a reset tick leaves the chip awake, with SCK LOW and no shift in progress. -/
theorem chipFits_reset (pre : Engine) (d : Bool) (v : U24) (c : Chip) :
    ChipFits (Engine.reset p) (chipReset pre d v c) := by
  suffices h : (chipReset pre d v c).Low ∧ (chipReset pre d v c).phase.AtRest from h
  unfold chipReset
  dsimp only
  split
  · exact ⟨⟨rfl, rfl⟩, trivial⟩
  split
  · exact ⟨chipResumed_low, chipResumed_atRest⟩
  · next hawake =>
    refine ⟨⟨Bool.not_eq_true _ ▸ hawake, rfl⟩, ?_⟩
    dsimp only
    split <;> trivial

end Moves

end Sys2Proof.Machine
end

section
/-! The outcome flags of a tick, the bridge's part of the invariant (42_bridge.md R131, R142),
STATUS (R38), and the statements on the engine's state. -/

namespace Sys2Proof.Machine

section Flags
variable {p : Config} {d : Bool} {e : Engine}

/-- R84: a ready poll. -/
theorem pollReady_eq : pollReady d e = decide (e.pollc = 0 ∧ d = false) := by
  rw [pollReady, beq_eq_decide, Bool.decide_and]
  cases d <;> rfl

/-- R86: the one condition under which a busy tick raises TIMEOUT. -/
def timesOut (p : Config) (d : Bool) (e : Engine) : Bool :=
  decide (e.fsm = .wait) && !pollReady d e && timeoutDue p e

theorem waitTick_flags : (waitTick p d e).flags =
    { e.flags with timeout := e.flags.timeout || (!pollReady d e && timeoutDue p e) } := by
  unfold waitTick
  cases hr : pollReady d e with
  | true => cases hm : e.mode <;> simp [waitReady, hm]
  | false =>
    cases ht : timeoutDue p e with
    | true => cases hm : e.mode <;> simp [waitTimedOut, hm, setFlag]
    | false => simp [waitOn_eq]

theorem highTick_flags : (highTick p d e).flags = e.flags := by
  unfold highTick
  split
  · rfl
  split <;> rfl

theorem lowTick_flags : (lowTick p e).flags = e.flags := by
  unfold lowTick
  split
  · rfl
  split <;> rfl

theorem slpLowTick_flags : (slpLowTick p e).flags = e.flags := by
  unfold slpLowTick
  split <;> rfl

theorem slpHoldTick_flags : (slpHoldTick p e).flags = e.flags := by
  unfold slpHoldTick
  split <;> rfl

/-- R86, R146: a tick with no request present raises nothing but TIMEOUT. -/
theorem quietEngine_flags : (quietEngine p d e).flags =
    { e.flags with timeout := e.flags.timeout || timesOut p d e } := by
  unfold quietEngine pinTick timesOut
  rw [latch_fsm]
  cases h : e.fsm with
  | idle => simp
  | wait => simpa using waitTick_flags (e := latch d e)
  | high => simp [highTick_flags]
  | low => simp [lowTick_flags]
  | slpLow => simp [slpLowTick_flags]
  | slpHold => simp [slpHoldTick_flags]

end Flags

/-- R130, R131, R142: in the bridge configuration the engine's tick is quiet, or it is the
acceptance of a request that raises neither OVERRUN nor BADGAIN nor ILLEGAL and starts no wait but a
READ's. -/
theorem EngineStep.bridge_cases {s : State} {e : Engine} (h : EngineStep s e)
    (hk : s.cfg.kind = .bridge) :
    e = quietEngine s.cfg (sample s) s.core ∨
      (s.bridge.bfsm = .bWait ∧ s.core.fsm = .idle ∧ (e.fsm = .wait → e.mode = .rd) ∧
        e.flags.overrun = false ∧ e.flags.badGain = false ∧ e.flags.illegal = false) := by
  cases h with
  | quiet => exact .inl rfl
  | request f hf hk' => rw [hk] at hk'; cases hk'
  | presented f hk' hb hi hf =>
    refine .inr ⟨hb, hi, ?_⟩
    rcases hf with rfl | rfl | rfl | ⟨n, hn, rfl⟩
    · unfold acceptRead
      split
      · exact ⟨fun hw => (by simp [hi] at hw), rfl, rfl, rfl⟩
      · exact ⟨fun _ => rfl, rfl, rfl, rfl⟩
    · unfold acceptSleep
      split
      · exact ⟨fun hw => (by simp [hi] at hw), rfl, rfl, rfl⟩
      · exact ⟨fun hw => (by cases hw), rfl, rfl, rfl⟩
    · unfold acceptWake
      split
      · exact ⟨fun hw => (by simp [hi] at hw), rfl, rfl, rfl⟩
      · exact ⟨fun hw => (by simp [hi] at hw), rfl, rfl, rfl⟩
    · simp [acceptSetgain, hn, hi, OutcomeFlags.clear]

/-- A quiet tick begins no wait (R112, R114 do). -/
theorem quietEngine_wait {p : Config} {d : Bool} {e : Engine}
    (h : (quietEngine p d e).fsm = .wait) : e.fsm = .wait ∧ (quietEngine p d e).mode = e.mode := by
  have hm : Moves p d e (quietEngine p d e) := moves_quietEngine
  by_cases hi : e.fsm = .idle
  · rw [quietEngine_of_idle hi] at h ⊢
    exact ⟨h, rfl⟩
  generalize quietEngine p d e = e' at h hm ⊢
  cases hm <;> simp_all

/-- A quiet tick begins no sleep transition (R119 does). -/
theorem quietEngine_sleeps {p : Config} {d : Bool} {e : Engine}
    (h : e.fsm ≠ .slpLow ∧ e.fsm ≠ .slpHold) :
    (quietEngine p d e).fsm ≠ .slpLow ∧ (quietEngine p d e).fsm ≠ .slpHold := by
  have hm : Moves p d e (quietEngine p d e) := moves_quietEngine
  by_cases hi : e.fsm = .idle
  · rwa [quietEngine_of_idle hi]
  generalize quietEngine p d e = e' at hm ⊢
  cases hm <;> simp_all

theorem acceptRead_sleeps {e : Engine} (h : e.fsm = .idle) :
    (acceptRead e).fsm ≠ .slpLow ∧ (acceptRead e).fsm ≠ .slpHold := by
  unfold acceptRead
  split <;> simp [h, enterWait]

/-- R81, R111: the engine tick of a busy core, with and without a request on the core port. -/
theorem step_of_busy {s t : State} (h : step s = .next t) (hr : (input s).rst = false)
    (hb : s.core.fsm ≠ .idle) :
    t.core = if decide (s.cfg.kind = .core) && (input s).req.isSome then
        raise .overrun (quietEngine s.cfg (sample s) s.core)
      else quietEngine s.cfg (sample s) s.core := by
  rcases step_cases h with ⟨hr', _⟩ | ⟨_, ht⟩
  · rw [hr] at hr'; cases hr'
  cases hk : s.cfg.kind with
  | core =>
    rcases step_core ht.legal hk hr with ⟨hq, hs⟩ | ⟨w, f, hq, _, hs⟩
    · rw [hs] at h; cases h
      simp [hq, quietTick]
    · rw [hs] at h; cases h
      simp [hq, requestTick, requestEngine_of_busy hb]
  | bridge =>
    rcases ht.engine.bridge_cases hk with hq | ⟨_, hi, _⟩
    · simpa using hq
    · exact absurd hi hb

section Bridge
variable {s t : State}

/-- R130: without a bridge, BFSM stays in B_IDLE. -/
theorem Ticked.bridge_absent (h : Ticked s t) (hb : BridgeAgrees s) (hk : s.cfg.kind = .core) :
    t.bridge.bfsm = .bIdle := by
  have hk' : s.cfg.kind ≠ .bridge := by simp [hk]
  cases h.bridge with
  | stays hs => rw [hs]; exact hb.absent hk
  | takes hk'' => exact absurd hk'' hk'
  | completes hk'' => exact absurd hk'' hk'
  | presents hk'' => exact absurd hk'' hk'

/-- R142: the bridge's core never shows OVERRUN, BADGAIN or ILLEGAL. -/
theorem Ticked.bridge_flags (h : Ticked s t) (hb : BridgeAgrees s) (hk : s.cfg.kind = .bridge) :
    t.core.flags.overrun = false ∧ t.core.flags.badGain = false ∧ t.core.flags.illegal = false := by
  rcases h.engine.bridge_cases hk with hq | ⟨_, _, _, hflags⟩
  · rw [hq, quietEngine_flags]
    exact ⟨hb.overrun hk, hb.badGain hk, hb.illegal hk⟩
  · exact hflags

/-- R138: the bridge's core waits for a READ only. -/
theorem Ticked.bridge_reads (h : Ticked s t) (hb : BridgeAgrees s) (hk : s.cfg.kind = .bridge)
    (hw : t.core.fsm = .wait) : t.core.mode = .rd := by
  rcases h.engine.bridge_cases hk with hq | ⟨_, _, hread, _⟩
  · rw [hq] at hw ⊢
    obtain ⟨hw', hm⟩ := quietEngine_wait hw
    rw [hm]
    exact hb.reads hk hw'
  · exact hread hw

/-- R131, R138: B_RUN is entered with READ, and no request is presented in it. -/
theorem Ticked.bridge_running (h : Ticked s t) (hb : BridgeAgrees s) (hr : t.bridge.bfsm = .bRun) :
    t.core.fsm ≠ .slpLow ∧ t.core.fsm ≠ .slpHold := by
  cases h.bridge with
  | stays hs =>
    rw [hs] at hr
    have hk : s.cfg.kind = .bridge := by
      cases hk : s.cfg.kind with
      | core => rw [hb.absent hk] at hr; cases hr
      | bridge => rfl
    rcases h.engine.bridge_cases hk with hq | ⟨hwait, _⟩
    · rw [hq]
      exact quietEngine_sleeps (hb.running hr)
    · rw [hwait] at hr
      cases hr
  | takes _ hs => rw [hs] at hr; cases hr
  | completes _ hs => rw [hs] at hr; cases hr
  | presents _ _ hc hi =>
    rw [hc]
    exact acceptRead_sleeps hi

theorem Ticked.bridgeAgrees (h : Ticked s t) (hb : BridgeAgrees s) : BridgeAgrees t := by
  have hkind : t.cfg.kind = s.cfg.kind := congrArg Config.kind h.rest.cfg
  constructor
  case absent => exact fun hk => h.bridge_absent hb (hkind ▸ hk)
  case overrun => exact fun hk => (h.bridge_flags hb (hkind ▸ hk)).1
  case badGain => exact fun hk => (h.bridge_flags hb (hkind ▸ hk)).2.1
  case illegal => exact fun hk => (h.bridge_flags hb (hkind ▸ hk)).2.2
  case reads => exact fun hk => h.bridge_reads hb (hkind ▸ hk)
  case running => exact h.bridge_running hb

theorem bridgeAgrees_of_reset (hc : t.core = Engine.reset t.cfg) (hb : t.bridge = Bridge.reset) :
    BridgeAgrees t := by
  constructor <;> simp [hc, hb, Engine.reset, Bridge.reset, OutcomeFlags.clear]

end Bridge

section Invariant
variable {s t : State}

theorem gainLegal_reset {p : Config} (hl : configLegal p = true) :
    GainLegal p (Engine.reset p) := by
  obtain ⟨_, _, _, _, _, _, _, hg⟩ := configLegal_ranges hl
  exact fun _ => hg

/-- Every state right after reset meets the invariant, given what the chip is then (R46, R171). -/
theorem inv_of_reset (hl : configLegal t.cfg = true) (hc : t.core = Engine.reset t.cfg)
    (hb : t.bridge = Bridge.reset) (hchip : ChipFits (Engine.reset t.cfg) t.chip) : Inv t where
  legal := hl
  clock := hc ▸ clockLevels_reset
  counters := hc ▸ counterRanges_reset hl
  gain := hc ▸ gainLegal_reset hl
  result := hc ▸ resultIsSample_zero
  shift := hc ▸ shiftBounded_of_full rfl
  chip := (chipAgrees_iff (hc ▸ clockLevels_reset)).2 (hc ▸ hchip)
  bridge := bridgeAgrees_of_reset hc hb

theorem Ticked.moves (h : Ticked s t) : Moves s.cfg (sample s) s.core t.core := h.engine.moves

theorem Ticked.chipAgrees (h : Ticked s t) (hc : ClockLevels s.core) (ha : ChipAgrees s) :
    ChipAgrees t := by
  rw [chipAgrees_iff hc] at ha
  rw [chipAgrees_iff (h.moves.clockLevels hc), h.rest.chip]
  exact h.moves.chipFits h.legal hc (chipFits_sampled _ _ _ ha)

theorem Ticked.inv (h : Ticked s t) (hs : Inv s) : Inv t where
  legal := h.rest.cfg ▸ hs.legal
  clock := h.moves.clockLevels hs.clock
  counters := h.rest.cfg ▸ h.moves.counterRanges hs.legal hs.counters
  gain := h.rest.cfg ▸ h.moves.gainLegal hs.gain
  result := h.moves.resultIsSample hs.result
  shift := h.moves.shiftBounded hs.shift
  chip := h.chipAgrees hs.clock hs.chip
  bridge := h.bridgeAgrees hs.bridge

end Invariant

section Status
variable (e : Engine)

/-- R38: the bits of STATUS, bit 0 first. -/
def statusBits : List Bool :=
  [busy e, e.sleep, e.flags.timeout, e.flags.badGain, e.flags.sleepErr, e.flags.overrun,
    e.flags.illegal, e.doutLast]

theorem statusWord_getLsbD {n : Nat} (hn : n < 8) :
    (statusWord e).getLsbD n = (statusBits e).getD n false := by
  simp only [statusWord, BitVec.getLsbD_append, BitVec.getLsbD_ofBool]
  interval_cases n <;> simp [statusBits]

theorem statusBits_raise (x : ErrorFlag) :
    statusBits (raise x e) = (statusBits e).set (errorCode x) true := by
  cases x <;> rfl

/-- R140: `raise E` sets the bit whose number is the code of E, and no other. -/
theorem statusWord_raise (x : ErrorFlag) {n : Nat} (hn : n < 8) :
    (statusWord (raise x e)).getLsbD n =
      (decide (n = errorCode x) || (statusWord e).getLsbD n) := by
  have hlen : n < (statusBits e).length := hn
  rw [statusWord_getLsbD _ hn, statusWord_getLsbD _ hn, statusBits_raise]
  by_cases h : n = errorCode x
  · subst h
    simp [hlen]
  · simp [h, Ne.symm h]

theorem statusWord_reset (p : Config) : statusWord (Engine.reset p) = 0x80 := by
  have h : statusWord (Engine.reset p) = statusWord (Engine.reset Config.coreDefault) := rfl
  rw [h]
  decide

end Status

section Causes
variable {p : Config} {d : Bool} {e e' : Engine}

/-- R36: the moves that write RESULT. -/
theorem Moves.result_writers (h : Moves p d e e') (hne : e'.result ≠ e.result) :
    (e.fsm = .low ∧ e'.fsm = .idle ∧ e'.result = sext32 e.shreg) ∨
      (e.fsm = .wait ∧ e.mode = .rd ∧ e'.flags.timeout = true ∧ e'.result = 0) ∨
      (e.fsm = .idle ∧ e.sleep = true ∧ e'.flags.sleepErr = true ∧ e'.result = 0) := by
  cases h with
  | readingDone f hl => exact .inl ⟨hl, rfl, rfl⟩
  | readTimesOut f hw _ _ hm hf => exact .inr (.inl ⟨hw, hm, hf, rfl⟩)
  | readRefused f hi hs hf => exact .inr (.inr ⟨hi, hs, hf, rfl⟩)
  | _ => exact absurd rfl hne

/-- R30, R100: the moves with an edge of SCK. SLEEP accepted awake writes a LOW that stands
already. -/
theorem Moves.sck_edges (h : Moves p d e e') (hc : ClockLevels e) (hne : e'.sck ≠ e.sck) :
    (e'.sck = true ∧ ((e.fsm = .wait ∧ e'.fsm = .high) ∨ (e.fsm = .low ∧ e'.fsm = .high) ∨
      (e.fsm = .slpLow ∧ e'.fsm = .slpHold))) ∨
    (e'.sck = false ∧ ((e.fsm = .high ∧ e'.fsm = .low) ∨
      (e.fsm = .idle ∧ e.sleep = true ∧ e'.sleep = false))) := by
  cases h with
  | trainBegins f hw => exact .inl ⟨rfl, .inl ⟨hw, rfl⟩⟩
  | nextPulse f hl => exact .inl ⟨rfl, .inr (.inl ⟨hl, rfl⟩)⟩
  | holdBegins f hl => exact .inl ⟨rfl, .inr (.inr ⟨hl, rfl⟩)⟩
  | bitCaptured f hh | gainPulseEnds f hh => exact .inr ⟨rfl, .inl ⟨hh, rfl⟩⟩
  | wakes f hi hs => exact .inr ⟨rfl, .inr ⟨hi, hs, rfl⟩⟩
  | sleepBegins f hi hs => exact absurd ((hc.idle hi).trans hs).symm hne
  | _ => exact absurd rfl hne

end Causes

end Sys2Proof.Machine

namespace Sys2Proof
open Sys2Proof.Machine

/-- Settles O48: a reset tick leads to a reset state, and every other step is one engine move that
the chip and the bridge follow. -/
theorem stepKeepsTheInvariant : Obligations.StepKeepsTheInvariant := by
  intro s t hs h
  rcases step_cases h with ⟨_, _, rfl⟩ | ⟨_, ht⟩
  · exact inv_of_reset hs.legal rfl rfl (chipFits_reset ..)
  · exact ht.inv hs

/-- Settles O50: a reset and every move lead to the clock levels of their FSM state. -/
theorem idleClockShowsSleep : Obligations.IdleClockShowsSleep := by
  intro s t hc h
  have hc' : ClockLevels t.core := by
    rcases step_cases h with ⟨_, _, rfl⟩ | ⟨_, ht⟩
    · exact clockLevels_reset
    · exact ht.moves.clockLevels hc
  exact ⟨hc', hc'.idle⟩

/-- Settles O27: STATUS through its list of bits, the flags of a busy tick through
`step_of_busy`. -/
theorem busyTickFlags : Obligations.BusyTickFlags := by
  refine ⟨fun e => ?_, fun s t h hr hb => ?_⟩
  · have hbit : ∀ n < 8, (statusWord e).getLsbD n = (statusBits e).getD n false :=
      fun n hn => statusWord_getLsbD e hn
    refine ⟨(hbit 0 (by decide)).trans ?_, hbit 1 (by decide), hbit 2 (by decide),
      hbit 3 (by decide), hbit 4 (by decide), hbit 5 (by decide), hbit 6 (by decide),
      hbit 7 (by decide), fun x n hn => statusWord_raise e x hn⟩
    exact (decide_not ..).symm
  · rw [step_of_busy h hr hb]
    have hq := quietEngine_flags (p := s.cfg) (d := sample s) (e := s.core)
    rw [timesOut, pollReady_eq] at hq
    cases decide (s.cfg.kind = .core) && (input s).req.isSome with
    | true => simp [hq, setFlag]
    | false => simp [hq]

/-- Settles O52: the edges of a move, and the fall of a reset tick. -/
theorem clockEdges : Obligations.ClockEdges := by
  intro s t hs h hne
  rcases step_cases h with ⟨hr, _, rfl⟩ | ⟨_, ht⟩
  · exact ⟨fun hup => (by cases hup), fun _ => .inl hr⟩
  · rcases ht.moves.sck_edges hs.clock hne with ⟨hup, hcause⟩ | ⟨hdown, hcause⟩
    · exact ⟨fun _ => hcause, fun hdown => by rw [hup] at hdown; cases hdown⟩
    · exact ⟨fun hup => (by rw [hdown] at hup; cases hup), fun _ => .inr hcause⟩

/-- Settles O53: the writers among the moves, and a reset tick. -/
theorem resultWriters : Obligations.ResultWriters := by
  intro s t h hne
  rcases step_cases h with ⟨hr, _, rfl⟩ | ⟨_, ht⟩
  · exact .inl ⟨hr, rfl⟩
  · exact .inr (ht.moves.result_writers hne)

/-- Settles O6: the request on the port is what this tick fetches. -/
theorem stepRunsTheRequest : Obligations.StepRunsTheRequest := by
  intro s w i hl hk hr hq hd
  apply step_of_fetch
  simp [fetch, fetchWord, hl, hr, hk, hq, decode, hd, Decoded.instr?]

/-- Settles O10, register by register. -/
theorem resetValues : Obligations.ResetValues := by
  intro p
  exact ⟨rfl, rfl, rfl, rfl, rfl, rfl, rfl, rfl, rfl, rfl, rfl, rfl, statusWord_reset p, rfl, rfl⟩

/-- Settles O49, with the chip of `Chip.start`: awake, SCK LOW and no shift in progress. -/
theorem resetMeetsTheInvariant : Obligations.ResetMeetsTheInvariant := by
  intro p hl
  exact inv_of_reset hl rfl rfl ⟨⟨rfl, rfl⟩, trivial⟩

end Sys2Proof
end

section
/-! The host's view of the bridge response (20_memory.md R53). -/

namespace Sys2Proof.Machine

/-- R53: the host gets RESULT back from its four bytes, most significant byte first. -/
theorem rebuildResult_bytes (r : Sample32) :
    rebuildResult (r.extractLsb' 24 8) (r.extractLsb' 16 8) (r.extractLsb' 8 8)
      (r.extractLsb' 0 8) = r := by
  have hhigh : r.extractLsb' 24 8 ++ r.extractLsb' 16 8 = r.extractLsb' 16 16 :=
    BitVec.extractLsb'_append_extractLsb'_eq_extractLsb' rfl
  have hupper : r.extractLsb' 16 16 ++ r.extractLsb' 8 8 = r.extractLsb' 8 24 :=
    BitVec.extractLsb'_append_extractLsb'_eq_extractLsb' rfl
  rw [rebuildResult, hhigh, hupper]
  exact BitVec.extractLsb'_append_extractLsb'

end Sys2Proof.Machine

namespace Sys2Proof
open Sys2Proof.Machine

/-- Settles O33: the frame lists the four bytes of RESULT, and `rebuildResult_bytes` joins them. -/
theorem responseIsBigEndian : Obligations.ResponseIsBigEndian := by
  intro r
  exact ⟨_, _, _, _, rfl, rfl, rfl, rfl, rfl, rebuildResult_bytes r⟩

end Sys2Proof
end

section
/-! The decoder row by row (30_encoding.md R70, R71), the words that it rejects (R72, R74), and the
inversion of both maps: a word is rejected, or it is the word of the instruction it decodes to. -/

namespace Sys2Proof

/-! #### A request word -/

section Request
variable {w : Req16}

@[simp] theorem decodeReq_read (arg : Byte) : decodeReq (mkReq 0x01 arg) = .instr (.read arg) := by
  simp [decodeReq]

@[simp] theorem decodeReq_waitrdy (arg : Byte) :
    decodeReq (mkReq 0x02 arg) = .instr (.waitrdy arg) := by
  simp [decodeReq]

@[simp] theorem decodeReq_setgain (n : Byte) : decodeReq (mkReq 0x03 n) = .instr (.setgain n) := by
  simp [decodeReq]

@[simp] theorem decodeReq_sleep (arg : Byte) : decodeReq (mkReq 0x04 arg) = .instr (.sleep arg) := by
  simp [decodeReq]

@[simp] theorem decodeReq_wake (arg : Byte) : decodeReq (mkReq 0x05 arg) = .instr (.wake arg) := by
  simp [decodeReq]

/-- R70, R72: the five op codes are those between the reserved ones. -/
theorem opCode_not_reserved_iff {op : Byte} : ¬ (op = 0 ∨ 0x06 ≤ op.toNat) ↔
    op = 0x01 ∨ op = 0x02 ∨ op = 0x03 ∨ op = 0x04 ∨ op = 0x05 := by
  bv_omega

theorem decodeReq_reserved (h : opField w = 0 ∨ 0x06 ≤ (opField w).toNat) :
    decodeReq w = .reservedOp (opField w) := by
  have hops := mt opCode_not_reserved_iff.2 (not_not.2 h)
  simp only [not_or] at hops
  obtain ⟨h1, h2, h3, h4, h5⟩ := hops
  simp only [decodeReq, h1, h2, h3, h4, h5, if_false]

theorem decodeReq_cases (p : CmdBytes) (w : Req16) :
    ((opField w = 0 ∨ 0x06 ≤ (opField w).toNat) ∧ decodeReq w = .reservedOp (opField w)) ∨
    (¬ (opField w = 0 ∨ 0x06 ≤ (opField w).toNat) ∧
      ∃ i, decodeReq w = .instr i ∧ encode p i = .req w) := by
  by_cases h : opField w = 0 ∨ 0x06 ≤ (opField w).toNat
  · exact .inl ⟨h, decodeReq_reserved h⟩
  · refine .inr ⟨h, ?_⟩
    rw [← mkReq_fields w]
    rcases opCode_not_reserved_iff.1 h with hop | hop | hop | hop | hop <;> rw [hop]
    · exact ⟨_, decodeReq_read _, rfl⟩
    · exact ⟨_, decodeReq_waitrdy _, rfl⟩
    · exact ⟨_, decodeReq_setgain _, rfl⟩
    · exact ⟨_, decodeReq_sleep _, rfl⟩
    · exact ⟨_, decodeReq_wake _, rfl⟩

end Request

/-! #### A transaction word -/

section Transaction
variable (p : CmdBytes)

@[simp] theorem decodeBtx_bwGain128 : decodeBtx p (mkBtx false 0x19) = .instr .bwGain128 := by
  simp [decodeBtx]

@[simp] theorem decodeBtx_bwGain32 : decodeBtx p (mkBtx false 0x1A) = .instr .bwGain32 := by
  simp [decodeBtx]

@[simp] theorem decodeBtx_bwGain64 : decodeBtx p (mkBtx false 0x1B) = .instr .bwGain64 := by
  simp [decodeBtx]

@[simp] theorem decodeBtx_br (cmd : Byte) : decodeBtx p (mkBtx true cmd) = .instr (.br cmd) := by
  simp [decodeBtx]

theorem isGainByte_eq_false_iff {b : Byte} :
    isGainByte b = false ↔ b ≠ 0x19 ∧ b ≠ 0x1A ∧ b ≠ 0x1B := by
  simp only [isGainByte, Bool.or_eq_false_iff, beq_eq_false_iff_ne, and_assoc]

/-- R67, R68: a write whose byte selects no gain is looked up among the two command bytes. -/
theorem decodeBtx_of_not_gain {cmd : Byte} (h : isGainByte cmd = false) :
    decodeBtx p (mkBtx false cmd) =
      if cmd = p.sleep then .instr .bwSleep
      else if cmd = p.wake then .instr .bwWake
      else .ignoredWrite cmd := by
  obtain ⟨h19, h1A, h1B⟩ := isGainByte_eq_false_iff.1 h
  simp only [decodeBtx, dirField_mkBtx, cmdField_mkBtx, Bool.false_eq_true, h19, h1A, h1B, if_false]

theorem decodeBtx_bwSleep (h : isGainByte p.sleep = false) :
    decodeBtx p (mkBtx false p.sleep) = .instr .bwSleep := by
  rw [decodeBtx_of_not_gain p h, if_pos rfl]

theorem decodeBtx_bwWake (h : isGainByte p.wake = false) (hne : p.wake ≠ p.sleep) :
    decodeBtx p (mkBtx false p.wake) = .instr .bwWake := by
  rw [decodeBtx_of_not_gain p h, if_neg hne, if_pos rfl]

/-- R71, R74: a write, by its byte. -/
theorem decodeBtx_write_cases (cmd : Byte) :
    (cmd ∉ [0x19, 0x1A, 0x1B, p.sleep, p.wake] ∧
      decodeBtx p (mkBtx false cmd) = .ignoredWrite cmd) ∨
    (cmd ∈ [0x19, 0x1A, 0x1B, p.sleep, p.wake] ∧
      ∃ i, decodeBtx p (mkBtx false cmd) = .instr i ∧ encode p i = .btx (mkBtx false cmd)) := by
  simp only [List.mem_cons, List.not_mem_nil, or_false]
  by_cases h19 : cmd = 0x19
  · subst h19; exact .inr ⟨.inl rfl, _, decodeBtx_bwGain128 p, rfl⟩
  by_cases h1A : cmd = 0x1A
  · subst h1A; exact .inr ⟨.inr (.inl rfl), _, decodeBtx_bwGain32 p, rfl⟩
  by_cases h1B : cmd = 0x1B
  · subst h1B; exact .inr ⟨.inr (.inr (.inl rfl)), _, decodeBtx_bwGain64 p, rfl⟩
  have hg : isGainByte cmd = false := isGainByte_eq_false_iff.2 ⟨h19, h1A, h1B⟩
  by_cases hs : cmd = p.sleep
  · subst hs; exact .inr ⟨.inr (.inr (.inr (.inl rfl))), _, decodeBtx_bwSleep p hg, rfl⟩
  by_cases hw : cmd = p.wake
  · subst hw; exact .inr ⟨.inr (.inr (.inr (.inr rfl))), _, decodeBtx_bwWake p hg hs, rfl⟩
  · refine .inl ⟨?_, by rw [decodeBtx_of_not_gain p hg, if_neg hs, if_neg hw]⟩
    simp only [h19, h1A, h1B, hs, hw, or_false, not_false_eq_true]

theorem decodeBtx_cases (w : Btx9) :
    ((dirField w = false ∧ cmdField w ∉ [0x19, 0x1A, 0x1B, p.sleep, p.wake]) ∧
      decodeBtx p w = .ignoredWrite (cmdField w)) ∨
    (¬ (dirField w = false ∧ cmdField w ∉ [0x19, 0x1A, 0x1B, p.sleep, p.wake]) ∧
      ∃ i, decodeBtx p w = .instr i ∧ encode p i = .btx w) := by
  obtain ⟨dir, cmd, rfl⟩ : ∃ dir cmd, w = mkBtx dir cmd := ⟨_, _, (mkBtx_fields w).symm⟩
  rw [dirField_mkBtx, cmdField_mkBtx]
  cases dir with
  | true => exact .inr ⟨fun ⟨hread, _⟩ => Bool.noConfusion hread, _, decodeBtx_br p cmd, rfl⟩
  | false =>
    rcases decodeBtx_write_cases p cmd with ⟨hcmd, hd⟩ | ⟨hcmd, hd⟩
    · exact .inl ⟨⟨rfl, hcmd⟩, hd⟩
    · exact .inr ⟨fun ⟨_, hn⟩ => hn hcmd, hd⟩

end Transaction

/-- What O4 says of a map, from the inversion of that map: `r` is the rejection, `P` its condition. -/
theorem rejected_exactly_when {d r : Decoded} {P : Prop} {Q : Instr → Prop} (hr : ∀ i, r ≠ .instr i)
    (h : (P ∧ d = r) ∨ (¬ P ∧ ∃ i, d = .instr i ∧ Q i)) :
    (d = r ↔ P) ∧ (¬ P → ∃ i, d = .instr i) := by
  rcases h with ⟨hP, hd⟩ | ⟨hP, i, hd, -⟩
  · exact ⟨iff_of_true hd hP, fun hn => absurd hP hn⟩
  · exact ⟨iff_of_false (fun he => hr i (he.symm.trans hd)) hP, fun _ => ⟨i, hd⟩⟩

end Sys2Proof

namespace Sys2Proof
open Sys2Proof.Machine

/-- Settles O1, row by row; only the two rows of R68 use that the instruction is well-formed. -/
theorem decodeEncodeRoundTrip : Obligations.DecodeEncodeRoundTrip := by
  intro p i hi
  cases i with
  | read arg => exact decodeReq_read arg
  | waitrdy arg => exact decodeReq_waitrdy arg
  | setgain n => exact decodeReq_setgain n
  | sleep arg => exact decodeReq_sleep arg
  | wake arg => exact decodeReq_wake arg
  | bwGain128 => exact decodeBtx_bwGain128 p
  | bwGain32 => exact decodeBtx_bwGain32 p
  | bwGain64 => exact decodeBtx_bwGain64 p
  | bwSleep =>
    have hgain : isGainByte p.sleep = false := by simpa [Instr.wellFormed] using hi
    exact decodeBtx_bwSleep p hgain
  | bwWake =>
    obtain ⟨hgain, hne⟩ : isGainByte p.wake = false ∧ p.wake ≠ p.sleep := by
      simpa [Instr.wellFormed] using hi
    exact decodeBtx_bwWake p hgain hne
  | br cmd => exact decodeBtx_br p cmd

/-- Settles O2: the inversion of the map of the word's port. -/
theorem encodeDecodeRoundTrip : Obligations.EncodeDecodeRoundTrip := by
  intro p w i h
  cases w with
  | req w =>
    rcases decodeReq_cases p w with ⟨-, hd⟩ | ⟨-, j, hd, he⟩
    · cases hd.symm.trans h
    · cases hd.symm.trans h; exact he
  | btx w =>
    rcases decodeBtx_cases p w with ⟨-, hd⟩ | ⟨-, j, hd, he⟩
    · cases hd.symm.trans h
    · cases hd.symm.trans h; exact he

/-- Settles O4, from the inversion of the two maps. -/
theorem otherWordsAreRejectedByName : Obligations.OtherWordsAreRejectedByName :=
  ⟨fun w => rejected_exactly_when (fun _ => Decoded.noConfusion)
      (decodeReq_cases Config.coreDefault.cmd w),
    fun p w => rejected_exactly_when (fun _ => Decoded.noConfusion) (decodeBtx_cases p w)⟩

/-- Settles O3: each word has the bits of its row. -/
theorem specWordsDecode : Obligations.SpecWordsDecode := by
  unfold Obligations.SpecWordsDecode
  decide

/-- Settles O5: the class bytes are those of the three gain rows. -/
theorem gainBytesCarryTheClass : Obligations.GainBytesCarryTheClass := by
  intro p g
  cases g with
  | g128 => exact ⟨rfl, rfl, decodeBtx_bwGain128 p⟩
  | g32 => exact ⟨rfl, rfl, decodeBtx_bwGain32 p⟩
  | g64 => exact ⟨rfl, rfl, decodeBtx_bwGain64 p⟩

end Sys2Proof

namespace Sys2Proof.Machine

/-! #### What a request with an ignored argument runs (R73) -/

theorem exec_read (arg : Byte) (s : State) : exec (.read arg) s = .next (requestTick s acceptRead) :=
  rfl

theorem exec_waitrdy (arg : Byte) (s : State) :
    exec (.waitrdy arg) s = .next (requestTick s acceptWaitrdy) := rfl

theorem exec_sleep (arg : Byte) (s : State) :
    exec (.sleep arg) s = .next (requestTick s acceptSleep) := rfl

theorem exec_wake (arg : Byte) (s : State) : exec (.wake arg) s = .next (requestTick s acceptWake) :=
  rfl

end Sys2Proof.Machine

namespace Sys2Proof
open Sys2Proof.Machine

/-- Settles O25: what each of the four runs does not name the argument. -/
theorem argumentIsIgnored : Obligations.ArgumentIsIgnored := by
  intro a s
  simp only [exec_read, exec_waitrdy, exec_sleep, exec_wake, and_self]

end Sys2Proof
end

section
/-! The tick rules of a busy engine (40_pin_protocol.md sections 2 to 5): the registers after any step
without reset are those of the quiet tick, but for the outcome flags. -/

namespace Sys2Proof.Machine

section PinTicks
variable {p : Config} {d : Bool} {e : Engine}

theorem quietEngine_of_wait (h : e.fsm = .wait) :
    quietEngine p d e = waitTick p d (latch d e) := by
  simp only [quietEngine, pinTick, latch_fsm, h]

theorem quietEngine_of_high (h : e.fsm = .high) :
    quietEngine p d e = highTick p d (latch d e) := by
  simp only [quietEngine, pinTick, latch_fsm, h]

theorem quietEngine_of_low (h : e.fsm = .low) : quietEngine p d e = lowTick p (latch d e) := by
  simp only [quietEngine, pinTick, latch_fsm, h]

theorem quietEngine_of_slpLow (h : e.fsm = .slpLow) :
    quietEngine p d e = slpLowTick p (latch d e) := by
  simp only [quietEngine, pinTick, latch_fsm, h]

theorem quietEngine_of_slpHold (h : e.fsm = .slpHold) :
    quietEngine p d e = slpHoldTick p (latch d e) := by
  simp only [quietEngine, pinTick, latch_fsm, h]

/-- R86: the readiness bound is reached. -/
theorem timeoutDue_iff : timeoutDue p e = true ↔ ∃ n, readyBound p = some n ∧ n ≤ e.tmo + 1 := by
  unfold timeoutDue
  cases readyBound p with
  | none => simp
  | some n => simp

/-- R87: the poll of a READ finds the chip ready. -/
theorem quietEngine_ready_rd (hw : e.fsm = .wait) (hr : pollReady d e = true) (hm : e.mode = .rd) :
    quietEngine p d e =
      { e with doutLast := d, shreg := 0, k := 0, c := 1, sck := true, fsm := .high } := by
  rw [quietEngine_of_wait hw, waitTick, pollReady_latch, if_pos hr, waitReady, latch_mode, hm]
  rfl

/-- R88: the poll of a WAITRDY finds the chip ready. -/
theorem quietEngine_ready_rdy (hw : e.fsm = .wait) (hr : pollReady d e = true)
    (hm : e.mode = .rdy) : quietEngine p d e = { e with doutLast := d, fsm := .idle } := by
  rw [quietEngine_of_wait hw, waitTick, pollReady_latch, if_pos hr, waitReady, latch_mode, hm]
  rfl

/-- R86: the wait runs out. -/
theorem quietEngine_timedOut (hw : e.fsm = .wait) (hr : ¬ pollReady d e = true)
    (ht : timeoutDue p e = true) :
    quietEngine p d e = { e with
      doutLast := d, fsm := .idle, result := if e.mode = .rd then 0 else e.result
      flags := setFlag .timeout e.flags } := by
  rw [quietEngine_of_wait hw, waitTick, pollReady_latch, if_neg hr, timeoutDue_latch, if_pos ht,
    waitTimedOut, latch_mode]
  cases e.mode with
  | rd => rfl
  | rdy => rfl

/-- R85: the wait goes on. -/
theorem quietEngine_waitOn (hw : e.fsm = .wait) (hr : ¬ pollReady d e = true)
    (ht : ¬ timeoutDue p e = true) :
    quietEngine p d e = { e with
      doutLast := d, pollc := (e.pollc + 1) % p.poll
      tmo := if readyBound p = none then e.tmo else e.tmo + 1 } := by
  rw [quietEngine_of_wait hw, waitTick, pollReady_latch, if_neg hr, timeoutDue_latch, if_neg ht,
    waitOn_eq]
  rfl

end PinTicks

section BusyStep
variable {s t : State}

/-- R111: a request presented to a busy core shows in the outcome flags only. -/
theorem step_of_busy_registers {e : Engine} (h : step s = .next t) (hr : (input s).rst = false)
    (hb : s.core.fsm ≠ .idle) (hq : quietEngine s.cfg (sample s) s.core = e) :
    t.core = { e with flags := t.core.flags } := by
  rw [step_of_busy h hr hb, hq]
  split <;> rfl

/-- R86, R146: a busy tick changes TIMEOUT only by raising it, in a wait that runs out. -/
theorem step_of_busy_timeout (h : step s = .next t) (hr : (input s).rst = false)
    (hb : s.core.fsm ≠ .idle) :
    t.core.flags.timeout = (s.core.flags.timeout || timesOut s.cfg (sample s) s.core) := by
  have hq := congrArg OutcomeFlags.timeout
    (quietEngine_flags (p := s.cfg) (d := sample s) (e := s.core))
  rw [step_of_busy h hr hb]
  split
  · exact hq
  · exact hq

/-- R81: with nothing on the port of a core outside a bridge, a step is the quiet tick. -/
theorem step_of_no_request (hl : configLegal s.cfg = true) (hk : s.cfg.kind = .core)
    (hr : (input s).rst = false) (hq : (input s).req = none) : step s = .next (quietTick s) := by
  rcases step_core hl hk hr with ⟨_, hs⟩ | ⟨w, f, hw, _, _⟩
  · exact hs
  · rw [hq] at hw
    cases hw

end BusyStep
end Sys2Proof.Machine

namespace Sys2Proof
open Sys2Proof.Machine

/-- Settles O28: `waitTick`, one clause per branch. -/
theorem waitTickRules : Obligations.WaitTickRules := by
  intro s t h hr hw
  have hb : s.core.fsm ≠ .idle := by simp [hw]
  have hready : pollReady (sample s) s.core = true ↔ s.core.pollc = 0 ∧ sample s = false := by
    rw [pollReady_eq, decide_eq_true_iff]
  refine ⟨fun hp hm => ?_, fun hp hm => ?_, fun hp hn => ⟨?_, ?_⟩, fun hp hn => ?_⟩
  · exact step_of_busy_registers h hr hb (quietEngine_ready_rd hw (hready.2 hp) hm)
  · exact step_of_busy_registers h hr hb (quietEngine_ready_rdy hw (hready.2 hp) hm)
  · have hnot : pollReady (sample s) s.core = false := Bool.eq_false_iff.2 (mt hready.1 hp)
    simp [step_of_busy_timeout h hr hb, timesOut, hw, hnot, timeoutDue_iff.2 hn]
  · have hq := quietEngine_timedOut hw (mt hready.1 hp) (timeoutDue_iff.2 hn)
    exact step_of_busy_registers h hr hb hq
  · have hq := quietEngine_waitOn hw (mt hready.1 hp) (mt timeoutDue_iff.1 hn)
    exact step_of_busy_registers h hr hb hq

/-- Settles O29: `highTick`, one clause per branch. -/
theorem highTickRules : Obligations.HighTickRules := by
  intro s t h hr hh
  have hb : s.core.fsm ≠ .idle := by simp [hh]
  refine ⟨fun hlt => ?_, fun heq hk => ?_, fun heq hk => ?_⟩
  · exact step_of_busy_registers h hr hb ((quietEngine_of_high hh).trans (if_pos hlt))
  · exact step_of_busy_registers h hr hb
      ((quietEngine_of_high hh).trans ((if_neg heq.not_lt).trans (if_pos hk)))
  · exact step_of_busy_registers h hr hb
      ((quietEngine_of_high hh).trans ((if_neg heq.not_lt).trans (if_neg hk.not_gt)))

/-- Settles O30: `lowTick`, one clause per branch. -/
theorem lowTickRules : Obligations.LowTickRules := by
  intro s t h hr hl
  have hb : s.core.fsm ≠ .idle := by simp [hl]
  refine ⟨fun hlt => ?_, fun heq hk => ?_, fun heq hk => ?_⟩
  · exact step_of_busy_registers h hr hb ((quietEngine_of_low hl).trans (if_pos hlt))
  · exact step_of_busy_registers h hr hb
      ((quietEngine_of_low hl).trans ((if_neg heq.not_lt).trans (if_pos hk)))
  · exact step_of_busy_registers h hr hb
      ((quietEngine_of_low hl).trans ((if_neg heq.not_lt).trans (if_neg hk.not_gt)))

/-- Settles O31: `slpLowTick` and `slpHoldTick`, one clause per branch. -/
theorem sleepTransitionTickRules : Obligations.SleepTransitionTickRules := by
  intro s t h hr
  refine ⟨fun hl hlt => ?_, fun hl hle => ?_, fun hh hlt => ?_, fun hh hle => ?_⟩
  · exact step_of_busy_registers h hr (by simp [hl])
      ((quietEngine_of_slpLow hl).trans (if_pos hlt))
  · exact step_of_busy_registers h hr (by simp [hl])
      ((quietEngine_of_slpLow hl).trans (if_neg hle.not_gt))
  · exact step_of_busy_registers h hr (by simp [hh])
      ((quietEngine_of_slpHold hh).trans (if_pos hlt))
  · exact step_of_busy_registers h hr (by simp [hh])
      ((quietEngine_of_slpHold hh).trans (if_neg hle.not_gt))

/-- Settles O12: the quiet tick of an idle engine only latches the sample. -/
theorem idleTickOnlySamples : Obligations.IdleTickOnlySamples := by
  intro s hl hr hk hq hi
  exact ⟨quietTick s, step_of_no_request hl hk hr hq, ⟨elapsed_commit _ _, rfl, rfl⟩,
    quietEngine_of_idle hi⟩

end Sys2Proof
end

section
/-! Sign extension (40_pin_protocol.md R95, R96) and the levels that the chip drives on DOUT
(60_exceptions.md R150 to R152, R156). -/

namespace Sys2Proof.Machine

/-- R95: a byte of v below bit 24 stays where it is. -/
theorem sext32_low_byte (v : U24) {lo : Nat} (h : lo + 8 ≤ 24) :
    (sext32 v).extractLsb' lo 8 = v.extractLsb' lo 8 := by
  apply BitVec.eq_of_getLsbD_eq
  intro i hi
  have h24 : lo + i < 24 := by omega
  have h32 : lo + i < 32 := by omega
  rw [BitVec.getLsbD_extractLsb', sext32, BitVec.getLsbD_signExtend, if_pos h24,
    BitVec.getLsbD_extractLsb', decide_eq_true h32, Bool.true_and]

/-- R95: the top byte is eight copies of bit 23. -/
theorem sext32_top_byte (v : U24) :
    (sext32 v).extractLsb' 24 8 = if v.getLsbD 23 then 0xFF else 0x00 := by
  have hmsb : v.msb = v.getLsbD 23 := BitVec.msb_eq_getLsbD_last v
  have hones : (0xFF : Byte) = BitVec.allOnes 8 := rfl
  apply BitVec.eq_of_getLsbD_eq
  intro i hi
  have h24 : ¬ 24 + i < 24 := by omega
  have h32 : 24 + i < 32 := by omega
  rw [BitVec.getLsbD_extractLsb', sext32, BitVec.getLsbD_signExtend, hmsb, if_neg h24, hones]
  cases v.getLsbD 23 with
  | true =>
    rw [if_pos rfl, BitVec.getLsbD_allOnes, decide_eq_true h32, Bool.and_true, Bool.and_true]
  | false => simp

/-- R96: sign extension keeps the value. -/
theorem toInt_sext32 (v : U24) : (sext32 v).toInt = v.toInt :=
  BitVec.toInt_signExtend_of_le (by decide)

/-- R96: bit 23 weighs -2^23, not 2^23. -/
theorem toInt_u24 (v : U24) : v.toInt = (v.toNat : Int) - 2 ^ 24 * (v.getLsbD 23).toNat := by
  have hmsb : v.msb = v.getLsbD 23 := BitVec.msb_eq_getLsbD_last v
  rw [BitVec.toInt_eq_msb_cond, hmsb]
  cases v.getLsbD 23 with
  | true => rfl
  | false => simp

/-- R79: with no script on DOUT the sample is the chip's level. -/
theorem sample_of_unscripted {s : State} (h : (input s).dout = none) :
    sample s = chipLevel s.cfg.chipPresent s.core.sck (atSamplePoint s.cfg s.core)
      (Config.doutDraw s.tick) s.chip := by
  simp only [sample, h]

section ChipLevels
variable {present sck atSample draw : Bool} {v : Conversion} {c : Chip}

theorem chipLevel_absent : chipLevel false sck atSample draw c = true := rfl

theorem chipLevel_ready (ha : c.asleep = false) (hp : c.phase = .ready v) :
    chipLevel true false atSample draw c = false := by
  simp [chipLevel, ha, hp]

/-- R151: a data bit at the sample point. -/
theorem chipLevel_data (ha : c.asleep = false) (hp : c.phase = .shifting v) (hn : c.pulses ≤ 24) :
    chipLevel true sck true draw c = v.value.getLsbD (24 - c.pulses) := by
  simp [chipLevel, ha, hp, hn]

/-- R152: the 25th pulse at the sample point. -/
theorem chipLevel_postamble (ha : c.asleep = false) (hp : c.phase = .shifting v)
    (hn : c.pulses = 25) : chipLevel true sck true draw c = true := by
  simp [chipLevel, ha, hp, hn]

/-- 91 N6: before the sample point the level is open. -/
theorem chipLevel_open (ha : c.asleep = false) (hp : c.phase = .shifting v) :
    chipLevel true sck false draw c = draw := by
  simp [chipLevel, ha, hp]

end ChipLevels
end Sys2Proof.Machine

namespace Sys2Proof
open Sys2Proof.Machine

/-- Settles O32: the bytes bit by bit; the value laws are those of two's complement on 24 bits, since
sign extension keeps the value. -/
theorem signExtensionLaw : Obligations.SignExtensionLaw := by
  intro v
  simp only [toInt_sext32]
  refine ⟨sext32_top_byte v, sext32_low_byte v (by decide), sext32_low_byte v (by decide),
    sext32_low_byte v (by decide), toInt_u24 v, BitVec.le_toInt v,
    Int.lt_add_one_iff.1 BitVec.toInt_lt, fun u hu => BitVec.eq_of_toInt_eq hu, fun z hlo hhi => ?_⟩
  exact ⟨BitVec.ofInt 24 z, BitVec.toInt_ofInt_eq_self (by decide) hlo (Int.lt_add_one_iff.2 hhi)⟩

/-- Settles O44: the level of the chip, with the sample point of a HIGH phase read off C. -/
theorem chipDrivesDout : Obligations.ChipDrivesDout := by
  intro s hd
  rw [sample_of_unscripted hd]
  refine ⟨fun hx => ?_, fun v hx ha hp hs => ?_, fun v hx ha hp hs hf hc _ hn => ?_,
    fun v hx ha hp hs hf hc hn => ?_, fun v hx ha hp hs hf hc => ?_⟩
  · rw [hx, chipLevel_absent]
  · rw [hx, hs, chipLevel_ready ha hp]
  · rw [hx, atSamplePoint_iff.2 ⟨hs, hf, hc⟩, chipLevel_data ha hp hn]
  · rw [hx, atSamplePoint_iff.2 ⟨hs, hf, hc⟩, chipLevel_postamble ha hp hn]
  · have hbefore : atSamplePoint s.cfg s.core = false := by
      rw [Bool.eq_false_iff, ne_eq, atSamplePoint_iff]
      exact fun ⟨_, _, hle⟩ => hc.not_ge hle
    rw [hx, hbefore, chipLevel_open ha hp]

end Sys2Proof
end

section
/-! Runs of a busy engine in the core configuration, or in the bridge in B_RUN: no step is refused
there, and the bridge stays as it is (42_bridge.md R130, R138). -/

namespace Sys2Proof.Machine

section Steps
variable {s t : State}

/-- R20: a step without reset makes one move of the engine. -/
theorem moves_of_step (h : step s = .next t) (hr : (input s).rst = false) :
    Moves s.cfg (sample s) s.core t.core := by
  rcases step_cases h with ⟨hr', _⟩ | ⟨_, ht⟩
  · rw [hr] at hr'
    cases hr'
  · exact ht.moves

/-- R131: in B_RUN the bridge runs no transaction word. -/
theorem step_of_bRun (hl : configLegal s.cfg = true) (hk : s.cfg.kind = .bridge)
    (hb : s.bridge.bfsm = .bRun) (hr : (input s).rst = false) :
    step s = .next (bridgeRunTick s) := by
  have hf : fetch s = none := by simp [fetch, fetchWord, hl, hr, hk, hb]
  rw [step_of_no_fetch hf]
  simp [otherTick, hl, hr, hk, hb]

/-- R130, R131: a busy engine's step takes nothing from the bus, and the bridge waits for it. -/
theorem step_of_readRuns (hi : Inv s) (hrd : ReadRuns s) (hb : s.core.fsm ≠ .idle)
    (hr : (input s).rst = false) : ∃ t, step s = .next t ∧ t.bridge = s.bridge := by
  cases hk : s.cfg.kind with
  | core =>
    rcases step_core hi.legal hk hr with ⟨_, h⟩ | ⟨_, _, _, _, h⟩
    · exact ⟨_, h, rfl⟩
    · exact ⟨_, h, rfl⟩
  | bridge =>
    have hrun : s.bridge.bfsm = .bRun := hrd.resolve_left (by simp [hk])
    refine ⟨_, step_of_bRun hi.legal hk hrun hr, ?_⟩
    rw [bridgeRunTick, if_neg hb]
    rfl

end Steps

/-- A run of `m + n` ticks is a run of `m` and then one of `n`. -/
theorem runsTo_add {m n : Nat} {s t : State} :
    RunsTo (m + n) s t ↔ ∃ u, RunsTo m s u ∧ RunsTo n u t := by
  induction m generalizing s with
  | zero => simp [runsTo_zero]
  | succ m ih =>
    rw [Nat.succ_add, runsTo_succ]
    simp only [ih, runsTo_succ]
    constructor
    · rintro ⟨v, hv, u, hu, ht⟩
      exact ⟨u, ⟨v, hv, hu⟩, ht⟩
    · rintro ⟨u, ⟨v, hv, hu⟩, ht⟩
      exact ⟨v, hv, u, hu, ht⟩

theorem RunsTo.snoc {n : Nat} {s u t : State} (hu : RunsTo n s u) (h : step u = .next t) :
    RunsTo (n + 1) s t :=
  runsTo_add.2 ⟨u, hu, runsTo_succ.2 ⟨t, h, runsTo_zero.2 rfl⟩⟩

/-- After `n` ticks from `s` the machine is in `u`, and the bridge has stood still. -/
structure Along (s : State) (n : Nat) (u : State) : Prop where
  run : RunsTo n s u
  inv : Inv u
  cfg : u.cfg = s.cfg
  bridge : u.bridge = s.bridge

section Along
variable {s u : State} {n : Nat}

theorem Along.start (hi : Inv s) : Along s 0 s := ⟨runsTo_zero.2 rfl, hi, rfl, rfl⟩

theorem Along.input_eq (h : Along s n u) : input u = inputAt s n := (runsTo_inputs h.run).2 0

theorem ReadRuns.along (hrd : ReadRuns s) (h : Along s n u) : ReadRuns u := by
  unfold ReadRuns
  rwa [h.cfg, h.bridge]

/-- A run goes on by one tick while the engine is busy. -/
theorem Along.next (h : Along s n u) (hrd : ReadRuns s) (hb : u.core.fsm ≠ .idle)
    (hr : (input u).rst = false) : ∃ t, step u = .next t ∧ Along s (n + 1) t := by
  obtain ⟨t, hs, hbridge⟩ := step_of_readRuns h.inv (hrd.along h) hb hr
  exact ⟨t, hs, h.run.snoc hs, stepKeepsTheInvariant u t h.inv hs,
    (step_inputs hs).1.trans h.cfg, hbridge.trans h.bridge⟩

end Along

/-! #### A wait (R84 to R86) -/

/-- `u` is in tick `i` of a wait that began in `s` with POLLC, and TMO if it counts, at 0. -/
structure Waits (s : State) (i : Nat) (u : State) : Prop extends Along s i u where
  fsm : u.core.fsm = .wait
  mode : u.core.mode = s.core.mode
  gainN : u.core.gainN = s.core.gainN
  result : u.core.result = s.core.result
  pollc : u.core.pollc = i % s.cfg.poll
  tmo : ∀ n, readyBound s.cfg = some n → u.core.tmo = i
  timeout : u.core.flags.timeout = s.core.flags.timeout

section Waits
variable {s u : State} {i : Nat}

theorem Waits.start (hi : Inv s) (hw : s.core.fsm = .wait) (hp : s.core.pollc = 0)
    (ht : ∀ n, readyBound s.cfg = some n → s.core.tmo = 0) : Waits s 0 s where
  toAlong := .start hi
  fsm := hw
  mode := rfl
  gainN := rfl
  result := rfl
  pollc := hp.trans (Nat.zero_mod _).symm
  tmo := ht
  timeout := rfl

theorem Waits.busy (h : Waits s i u) : u.core.fsm ≠ .idle := by simp [h.fsm]

theorem Waits.sck (h : Waits s i u) : u.core.sck = false := h.inv.clock.down (.inl h.fsm)

/-- R84: the polls fall on the ticks that are multiples of P_POLL. -/
theorem Waits.pollReady_eq (h : Waits s i u) (d : Bool) :
    pollReady d u.core = (pollTick s.cfg i && !d) := by
  rw [pollReady, pollTick, h.pollc]

/-- R84: a poll that finds HIGH, and a tick with no poll, are not ready. -/
theorem Waits.pollReady_eq_false (h : Waits s i u)
    (hpoll : pollTick s.cfg i = true → sample u = true) : pollReady (sample u) u.core = false := by
  rw [h.pollReady_eq]
  cases hp : pollTick s.cfg i with
  | true => simp [hpoll hp]
  | false => rfl

theorem Waits.timeoutDue_eq (h : Waits s i u) {n : Nat} (hn : readyBound s.cfg = some n) :
    timeoutDue u.cfg u.core = decide (n ≤ i + 1) := by
  rw [timeoutDue, h.cfg, hn, h.tmo n hn]

/-- R85: a wait goes on where the poll finds HIGH, or none happens, below the bound. -/
theorem Waits.next (h : Waits s i u) (hrd : ReadRuns s) (hr : (inputAt s i).rst = false)
    (hpoll : pollTick s.cfg i = true → sample u = true)
    (hbound : ∀ n, readyBound s.cfg = some n → i + 1 < n) : ∃ t, Waits s (i + 1) t := by
  rw [← h.input_eq] at hr
  obtain ⟨t, hs, ht⟩ := h.toAlong.next hrd h.busy hr
  have hready := h.pollReady_eq_false hpoll
  have hdue : timeoutDue u.cfg u.core = false := by
    rw [timeoutDue_eq_false_iff, h.cfg]
    intro n hn
    rw [h.tmo n hn]
    exact hbound n hn
  have hcore := step_of_busy_registers hs hr h.busy
    (quietEngine_waitOn h.fsm (Bool.not_eq_true _ ▸ hready) (Bool.not_eq_true _ ▸ hdue))
  refine ⟨t, ht, ?_, ?_, ?_, ?_, ?_, fun n hn => ?_, ?_⟩
  · exact (congrArg Engine.fsm hcore).trans h.fsm
  · exact (congrArg Engine.mode hcore).trans h.mode
  · exact (congrArg Engine.gainN hcore).trans h.gainN
  · exact (congrArg Engine.result hcore).trans h.result
  · refine (congrArg Engine.pollc hcore).trans ?_
    rw [h.pollc, h.cfg, Nat.mod_add_mod]
  · refine (congrArg Engine.tmo hcore).trans ?_
    rw [h.cfg, hn, h.tmo n hn]
    rfl
  · simp [step_of_busy_timeout hs hr h.busy, timesOut, hdue, h.timeout]

/-- R85: `m` ticks whose polls all find HIGH, below the bound, are `m` ticks of waiting. -/
theorem waits_of_polls_high {m : Nat} (h0 : Waits s 0 s) (hrd : ReadRuns s) (hr : NoReset s m)
    (hpoll : ∀ i < m, ∀ u, RunsTo i s u → pollTick s.cfg i = true → sample u = true)
    (hbound : ∀ n, readyBound s.cfg = some n → m < n) : ∀ i ≤ m, ∃ u, Waits s i u := by
  intro i
  induction i with
  | zero => exact fun _ => ⟨s, h0⟩
  | succ i ih =>
    intro hi
    obtain ⟨u, hu⟩ := ih (Nat.le_of_succ_le hi)
    exact hu.next hrd (hr i hi) (hpoll i hi u hu.run) fun n hn => hi.trans_lt (hbound n hn)

/-- R86: in the last tick of the bound, a poll that finds HIGH, or none, ends the wait. -/
theorem Waits.runs_out {n : Nat} (h : Waits s i u) (hrd : ReadRuns s)
    (hr : (inputAt s i).rst = false) (hpoll : pollTick s.cfg i = true → sample u = true)
    (hn : readyBound s.cfg = some n) (hlast : n = i + 1) :
    ∃ t, Along s n t ∧ t.core.fsm = .idle ∧ t.core.sck = false ∧ t.core.flags.timeout = true ∧
      t.core.result = if s.core.mode = .rd then 0 else s.core.result := by
  rw [← h.input_eq] at hr
  obtain ⟨t, hs, ht⟩ := h.toAlong.next hrd h.busy hr
  have hready := h.pollReady_eq_false hpoll
  have hdue : timeoutDue u.cfg u.core = true := by
    rw [h.timeoutDue_eq hn, hlast]
    exact decide_eq_true le_rfl
  have hcore := step_of_busy_registers hs hr h.busy
    (quietEngine_timedOut h.fsm (Bool.not_eq_true _ ▸ hready) hdue)
  refine ⟨t, hlast ▸ ht, congrArg Engine.fsm hcore, (congrArg Engine.sck hcore).trans h.sck, ?_, ?_⟩
  · simp [step_of_busy_timeout hs hr h.busy, timesOut, h.fsm, hready, hdue]
  · refine (congrArg Engine.result hcore).trans ?_
    rw [h.mode, h.result]

end Waits

/-! #### A pulse train (R82, R89 to R95) -/

/-- Which tick of its pulse, counted from 0, an engine in HIGH or LOW is in: the HIGH phase comes
first (R82). -/
def pulseTick (p : Config) (e : Engine) : Nat :=
  if e.fsm = .high then e.c - 1 else p.tHigh + (e.c - 1)

/-- Which tick of its train, counted from 0, an engine in HIGH or LOW is in (R82, R102). -/
def trainTick (p : Config) (e : Engine) : Nat := e.k.toNat * pulseTicks p + pulseTick p e

section TrainTicks
variable {p : Config} {d : Bool} {e e' : Engine}

theorem pulseTick_of_high (h : e.fsm = .high) : pulseTick p e = e.c - 1 := if_pos h

theorem pulseTick_of_low (h : e.fsm = .low) : pulseTick p e = p.tHigh + (e.c - 1) :=
  if_neg (by simp [h])

theorem trainTick_of_high (h : e.fsm = .high) :
    trainTick p e = e.k.toNat * pulseTicks p + (e.c - 1) := by
  rw [trainTick, pulseTick_of_high h]

theorem trainTick_of_low (h : e.fsm = .low) :
    trainTick p e = e.k.toNat * pulseTicks p + (p.tHigh + (e.c - 1)) := by
  rw [trainTick, pulseTick_of_low h]

theorem pulseTick_lt (hc : CounterRanges p e) (hf : e.fsm = .high ∨ e.fsm = .low) :
    pulseTick p e < pulseTicks p ∧ (pulseTick p e < p.tHigh ↔ e.fsm = .high) := by
  have hpos := hc.c_pos
  unfold pulseTicks
  rcases hf with hf | hf
  · have hle := hc.c_high hf
    rw [pulseTick_of_high hf]
    exact ⟨by omega, iff_of_true (by omega) hf⟩
  · have hle := hc.c_low (.inl hf)
    rw [pulseTick_of_low hf]
    exact ⟨by omega, iff_of_false (by omega) (by simp [hf])⟩

/-- R82: SCK is HIGH in the first P_T_HIGH ticks of each pulse. -/
theorem trainTick_mod_lt_iff (hc : CounterRanges p e) (hf : e.fsm = .high ∨ e.fsm = .low) :
    trainTick p e % pulseTicks p < p.tHigh ↔ e.fsm = .high := by
  obtain ⟨hlt, hiff⟩ := pulseTick_lt hc hf
  rw [trainTick, Nat.mul_add_mod', Nat.mod_eq_of_lt hlt, hiff]

/-- R93, R102: the last pulse is pulse 23 + GAIN_N. -/
theorem trainTick_lt (hc : CounterRanges p e) (hf : e.fsm = .high ∨ e.fsm = .low) :
    trainTick p e < trainTicks p e.gainN := by
  have hk : e.k.toNat + 1 ≤ totalPulses e.gainN := by
    have := hc.k_train hf
    unfold totalPulses
    omega
  calc trainTick p e < e.k.toNat * pulseTicks p + pulseTicks p :=
        Nat.add_lt_add_left (pulseTick_lt hc hf).1 _
    _ = (e.k.toNat + 1) * pulseTicks p := (Nat.succ_mul ..).symm
    _ ≤ trainTicks p e.gainN := Nat.mul_le_mul_right _ hk

/-- Where an engine stands that began a train under the gain `g` `n` ticks ago: in the train, or at
its end. -/
inductive TrainPoint (p : Config) (g : Byte) (n : Nat) (e : Engine) : Prop where
  | pulses (hf : e.fsm = .high ∨ e.fsm = .low) (hn : trainTick p e = n) : TrainPoint p g n e
  | done (hf : e.fsm = .idle) (hn : n = trainTicks p g) (hr : e.result = sext32 e.shreg) :
      TrainPoint p g n e

/-- R89 to R95: each move of a train goes on to its next tick, or ends it. -/
theorem Moves.trainPoint (h : Moves p d e e') (hl : configLegal p = true) (hc : CounterRanges p e)
    (hf : e.fsm = .high ∨ e.fsm = .low) :
    e'.gainN = e.gainN ∧ e'.sleep = e.sleep ∧ TrainPoint p e.gainN (trainTick p e + 1) e' := by
  obtain ⟨_, hH, _, hL, _⟩ := configLegal_ranges hl
  have hpos := hc.c_pos
  cases h with
  | highOn f hh hlt =>
    refine ⟨rfl, rfl, .pulses (.inl hh) (Eq.trans (trainTick_of_high hh) ?_)⟩
    rw [trainTick_of_high hh]
    dsimp only
    omega
  | bitCaptured f hh hle | gainPulseEnds f hh hle =>
    refine ⟨rfl, rfl, .pulses (.inr rfl) ?_⟩
    have hceq : e.c = p.tHigh := Nat.le_antisymm (hc.c_high hh) hle
    rw [trainTick_of_high hh, trainTick_of_low rfl]
    dsimp only
    omega
  | lowOn f hl' hlt =>
    refine ⟨rfl, rfl, .pulses (.inr hl') (Eq.trans (trainTick_of_low hl') ?_)⟩
    rw [trainTick_of_low hl']
    dsimp only
    omega
  | nextPulse f hl' hle hk =>
    refine ⟨rfl, rfl, .pulses (.inl rfl) ?_⟩
    have hceq : e.c = p.tLow := Nat.le_antisymm (hc.c_low (.inl hl')) hle
    rw [trainTick_of_low hl', trainTick_of_high rfl]
    dsimp only
    rw [toNat_k_succ hk, Nat.succ_mul, pulseTicks]
    omega
  | readingDone f hl' hle hk =>
    refine ⟨rfl, rfl, .done rfl ?_ rfl⟩
    have hceq : e.c = p.tLow := Nat.le_antisymm (hc.c_low (.inl hl')) hle
    have hkeq : totalPulses e.gainN = e.k.toNat + 1 := by
      have := hc.k_train hf
      unfold totalPulses at hk ⊢
      omega
    rw [trainTick_of_low hl', trainTicks, hkeq, Nat.succ_mul, pulseTicks]
    omega
  | _ => simp_all

/-- What a tick of a train does to SHREG: nothing, or it captures the next data bit, in the last HIGH
tick of that bit's pulse (R83, R90). -/
inductive Captures (p : Config) (d : Bool) (e e' : Engine) : Prop where
  | none (hn : capturedBits e' = capturedBits e) (hs : e'.shreg = e.shreg) : Captures p d e e'
  | bit (hn : capturedBits e' = capturedBits e + 1) (hlt : capturedBits e < 24)
      (hs : e'.shreg = shiftIn e.shreg d)
      (ht : trainTick p e = capturedBits e * pulseTicks p + (p.tHigh - 1)) : Captures p d e e'

theorem capturedBits_of_high (h : e.fsm = .high) : capturedBits e = min 24 e.k.toNat := by
  simp only [capturedBits, h]

theorem capturedBits_of_low (h : e.fsm = .low) : capturedBits e = min 24 (e.k.toNat + 1) := by
  simp only [capturedBits, h]

theorem Moves.captures (h : Moves p d e e') (hc : CounterRanges p e)
    (hf : e.fsm = .high ∨ e.fsm = .low) : Captures p d e e' := by
  cases h with
  | highOn f hh hlt => exact .none rfl rfl
  | bitCaptured f hh hle hk =>
    have hceq : e.c = p.tHigh := Nat.le_antisymm (hc.c_high hh) hle
    have hn : capturedBits e = e.k.toNat := (capturedBits_of_high hh).trans (min_eq_right hk.le)
    refine .bit ?_ (hn ▸ hk) rfl ?_
    · rw [hn, capturedBits_of_low rfl]
      exact min_eq_right (Nat.succ_le_of_lt hk)
    · rw [trainTick_of_high hh, hn, hceq]
  | gainPulseEnds f hh hle hk =>
    refine .none ?_ rfl
    rw [capturedBits_of_high hh, capturedBits_of_low rfl, min_eq_left hk]
    exact min_eq_left (Nat.le_succ_of_le hk)
  | lowOn f hl hlt => exact .none rfl rfl
  | nextPulse f hl hle hk =>
    refine .none ?_ rfl
    rw [capturedBits_of_low hl, capturedBits_of_high rfl]
    exact congrArg (min 24) (toNat_k_succ hk)
  | readingDone f hl hle hk =>
    refine .none ?_ rfl
    rw [capturedBits_of_low hl]
    unfold totalPulses at hk
    exact (min_eq_left ((Nat.le_add_right ..).trans hk)).symm
  | _ => simp_all

/-- R90: SHREG's bit 0 is the bit just captured, the others move up. -/
theorem getLsbD_shiftIn (v : U24) (b : Bool) {i : Nat} (hi : i < 24) :
    (shiftIn v b).getLsbD i = if i = 0 then b else v.getLsbD (i - 1) := by
  rw [shiftIn, BitVec.getLsbD_append, BitVec.getLsbD_extractLsb']
  cases i with
  | zero => simp
  | succ i => simp [Nat.lt_of_succ_lt_succ hi]

end TrainTicks

/-- R83, R90: the bits that `u` has captured since `s` are the samples in the last HIGH ticks of their
pulses, first sample first. -/
def SamplesHeld (s u : State) : Prop :=
  ∀ j < capturedBits u.core, ∃ w, RunsTo (j * pulseTicks s.cfg + (s.cfg.tHigh - 1)) s w ∧
    u.core.shreg.getLsbD (capturedBits u.core - 1 - j) = sample w

theorem samplesHeld_of_captures {s u t : State} (hh : SamplesHeld s u)
    (hu : RunsTo (trainTick s.cfg u.core) s u) (hc : Captures s.cfg (sample u) u.core t.core) :
    SamplesHeld s t := by
  cases hc with
  | none hn hs => rwa [SamplesHeld, hn, hs]
  | bit hn hlt hs ht =>
    intro j hj
    rw [hn] at hj
    have hbit : capturedBits t.core - 1 - j < 24 := by omega
    rw [hs, getLsbD_shiftIn _ _ hbit]
    rcases Nat.lt_succ_iff_lt_or_eq.1 hj with hj' | rfl
    · obtain ⟨w, hw, hv⟩ := hh j hj'
      refine ⟨w, hw, ?_⟩
      rw [if_neg (by omega), ← hv]
      congr 1
      omega
    · exact ⟨u, ht ▸ hu, if_pos (by omega)⟩

/-- `u` is `n` ticks into the train that begins in `s`. -/
structure InTrain (s : State) (n : Nat) (u : State) : Prop extends Along s n u where
  gainN : u.core.gainN = s.core.gainN
  awake : u.core.sleep = false
  timeout : u.core.flags.timeout = s.core.flags.timeout
  held : SamplesHeld s u
  point : TrainPoint s.cfg s.core.gainN n u.core

section Train
variable {s u : State} {n : Nat}

theorem InTrain.start (hi : Inv s) (hf : s.core.fsm = .high) (hk : s.core.k = 0)
    (hc : s.core.c = 1) : InTrain s 0 s where
  toAlong := .start hi
  gainN := rfl
  awake := hi.clock.awake (by simp [hf])
  timeout := rfl
  held := by
    intro j hj
    rw [capturedBits_of_high hf, hk] at hj
    exact absurd hj (Nat.not_lt_zero j)
  point := .pulses (.inl hf) (by simp [trainTick_of_high hf, hk, hc])

/-- Before the train's end the engine is in HIGH or LOW. -/
theorem InTrain.pulses (h : InTrain s n u) (hn : n < trainTicks s.cfg s.core.gainN) :
    (u.core.fsm = .high ∨ u.core.fsm = .low) ∧ trainTick s.cfg u.core = n := by
  cases h.point with
  | pulses hf ht => exact ⟨hf, ht⟩
  | done _ heq => exact absurd heq hn.ne

theorem InTrain.busy (h : InTrain s n u) (hn : n < trainTicks s.cfg s.core.gainN) :
    u.core.fsm ≠ .idle := by
  rcases (h.pulses hn).1 with hf | hf <;> simp [hf]

/-- R94: at its end the reading is complete. -/
theorem InTrain.done (h : InTrain s (trainTicks s.cfg s.core.gainN) u) :
    u.core.fsm = .idle ∧ u.core.result = sext32 u.core.shreg := by
  cases h.point with
  | pulses hf ht =>
    have hlt := trainTick_lt h.inv.counters hf
    rw [h.cfg, ht, h.gainN] at hlt
    exact absurd hlt (lt_irrefl _)
  | done hf _ hr => exact ⟨hf, hr⟩

theorem InTrain.next (h : InTrain s n u) (hrd : ReadRuns s)
    (hn : n < trainTicks s.cfg s.core.gainN) (hr : (inputAt s n).rst = false) :
    ∃ t, InTrain s (n + 1) t := by
  rw [← h.input_eq] at hr
  obtain ⟨hf, hpos⟩ := h.pulses hn
  obtain ⟨t, hs, ht⟩ := h.toAlong.next hrd (h.busy hn) hr
  have hm := h.cfg ▸ moves_of_step hs hr
  have hcounters : CounterRanges s.cfg u.core := h.cfg ▸ h.inv.counters
  obtain ⟨hgain, hsleep, hpoint⟩ := hm.trainPoint (h.cfg ▸ h.inv.legal) hcounters hf
  refine ⟨t, ht, hgain.trans h.gainN, hsleep.trans h.awake, ?_, ?_, ?_⟩
  · have hwait : decide (u.core.fsm = .wait) = false := by rcases hf with hf | hf <;> simp [hf]
    simp [step_of_busy_timeout hs hr (h.busy hn), timesOut, hwait, h.timeout]
  · exact samplesHeld_of_captures h.held (hpos ▸ h.run) (hm.captures hcounters hf)
  · rwa [hpos, h.gainN] at hpoint

/-- R82, R130: without reset a train runs through to its end, whatever else is presented. -/
theorem inTrain_of_noReset (h0 : InTrain s 0 s) (hrd : ReadRuns s)
    (hn : n ≤ trainTicks s.cfg s.core.gainN) (hr : NoReset s n) : ∃ u, InTrain s n u := by
  induction n with
  | zero => exact ⟨s, h0⟩
  | succ n ih =>
    obtain ⟨u, hu⟩ := ih (Nat.le_of_succ_le hn) fun i hi => hr i (Nat.lt_succ_of_lt hi)
    exact hu.next hrd hn (hr n (Nat.lt_succ_self n))

end Train

/-! #### A READ, from its acceptance to its end (R84, R112, R138) -/

section Reading
variable {s t : State}

/-- R112, R138: READ accepted awake, in either configuration. -/
theorem exec_read_begins {op : Instr} {a : Byte} (hi : Inv s)
    (hop : (s.cfg.kind = .core ∧ op = .read a) ∨
      (s.cfg.kind = .bridge ∧ s.bridge.bfsm = .bWait ∧ op = .br a))
    (hidle : s.core.fsm = .idle) (hawake : s.core.sleep = false) :
    ∃ t, exec op s = .next t ∧ Ticked s t ∧ ReadRuns t ∧
      t.core = enterWait .rd (clearFlags (latch (sample s) s.core)) := by
  have hreq : requestEngine s.cfg (sample s) acceptRead s.core =
      enterWait .rd (clearFlags (latch (sample s) s.core)) := by
    rw [requestEngine_of_idle hidle, acceptRead, if_neg]
    simp [hawake]
  rcases hop with ⟨hk, rfl⟩ | ⟨hk, hb, rfl⟩
  · exact ⟨_, exec_read a s, ticked_request hi.legal hk .read, .inl hk, hreq⟩
  · have ht := ticked_bridgeRead hi.legal hk hb
    rw [bridgeReadTick, if_pos hidle] at ht
    exact ⟨_, congrArg Host.Outcome.next (if_pos hidle), ht, .inr rfl, hreq⟩

/-- R87: the poll that finds the chip ready begins the train of a READ. -/
theorem Waits.train_begins {i : Nat} {u : State} (h : Waits s i u) (hrd : ReadRuns s)
    (hr : (inputAt s i).rst = false) (hp : pollTick s.cfg i = true) (hs : sample u = false)
    (hm : s.core.mode = .rd) :
    ∃ t, Along s (i + 1) t ∧ InTrain t 0 t ∧ t.core.gainN = s.core.gainN ∧
      t.core.flags.timeout = s.core.flags.timeout := by
  rw [← h.input_eq] at hr
  obtain ⟨t, hstep, ht⟩ := h.toAlong.next hrd h.busy hr
  have hready : pollReady (sample u) u.core = true := by rw [h.pollReady_eq, hp, hs]; rfl
  have hcore := step_of_busy_registers hstep hr h.busy
    (quietEngine_ready_rd h.fsm hready (h.mode.trans hm))
  refine ⟨t, ht, .start ht.inv (congrArg Engine.fsm hcore) (congrArg Engine.k hcore)
    (congrArg Engine.c hcore), (congrArg Engine.gainN hcore).trans h.gainN, ?_⟩
  simp [step_of_busy_timeout hstep hr h.busy, timesOut, hready, h.timeout]

/-- R84, R87: a wait of a READ whose `w`-th tick is the first successful poll, within the bound, leads
to the train in `w` ticks. -/
theorem train_begins_in {w : Nat} (h0 : Waits s 0 s) (hrd : ReadRuns s) (hm : s.core.mode = .rd)
    (hw : 1 ≤ w) (hr : NoReset s w) (hp : pollTick s.cfg (w - 1) = true)
    (hbound : ∀ n, readyBound s.cfg = some n → w ≤ n)
    (hhigh : ∀ i < w - 1, ∀ u, RunsTo i s u → pollTick s.cfg i = true → sample u = true)
    (hlow : ∀ u, RunsTo (w - 1) s u → sample u = false) :
    (∀ i < w, ∃ u, Waits s i u) ∧
      ∃ t, Along s w t ∧ InTrain t 0 t ∧ t.core.gainN = s.core.gainN ∧
        t.core.flags.timeout = s.core.flags.timeout := by
  have hlast : w - 1 < w := Nat.sub_lt hw Nat.one_pos
  have hwaits := waits_of_polls_high h0 hrd (fun i hi => hr i (hi.trans hlast)) hhigh
    fun n hn => hlast.trans_le (hbound n hn)
  refine ⟨fun i hi => hwaits i (Nat.le_sub_one_of_lt hi), ?_⟩
  obtain ⟨u, hu⟩ := hwaits (w - 1) le_rfl
  have hbegin := hu.train_begins hrd (hr _ hlast) hp (hlow u hu.run) hm
  rwa [Nat.sub_add_cancel hw] at hbegin

/-- A train that begins `w` ticks into a run goes on along that run. -/
theorem runsTo_inTrain {w n : Nat} (ht : Along s w t) (h0 : InTrain t 0 t) (hrd : ReadRuns s)
    (hn : n ≤ trainTicks t.cfg t.core.gainN) (hr : NoReset s (w + n)) :
    ∃ u, RunsTo (w + n) s u ∧ InTrain t n u := by
  obtain ⟨u, hu⟩ := inTrain_of_noReset h0 (hrd.along ht) hn fun i hi => by
    rw [(runsTo_inputs ht.run).2]
    exact hr _ (Nat.add_lt_add_left hi w)
  exact ⟨u, runsTo_add.2 ⟨t, ht.run, hu.run⟩, hu⟩

end Reading
end Sys2Proof.Machine

namespace Sys2Proof
open Sys2Proof.Machine

/-- Settles O54: the run of the train, with SCK HIGH in the HIGH phases only. -/
theorem pulseTrainShape : Obligations.PulseTrainShape := by
  intro s i hi hrd hf hk hc hn hr
  obtain ⟨u, hu⟩ := inTrain_of_noReset (.start hi hf hk hc) hrd hn.le hr
  obtain ⟨hphase, hpos⟩ := hu.pulses hn
  have hcounters : CounterRanges s.cfg u.core := hu.cfg ▸ hu.inv.counters
  refine ⟨u, hu.run, bne_iff_ne.2 (hu.busy hn), hu.bridge, ?_⟩
  rw [Bool.eq_iff_iff, decide_eq_true_iff, ← hpos, trainTick_mod_lt_iff hcounters hphase]
  rcases hphase with hh | hl
  · exact iff_of_true (hu.inv.clock.up (.inl hh)) hh
  · exact iff_of_false (by simp [hu.inv.clock.down (.inr (.inl hl))]) (by simp [hl])

/-- Settles O55: the run of the whole train; SHREG holds the samples, and RESULT its extension. -/
theorem pulseTrainDeliversTheSamples : Obligations.PulseTrainDeliversTheSamples := by
  intro s hi hrd hf hk hc hr
  obtain ⟨t, ht⟩ := inTrain_of_noReset (.start hi hf hk hc) hrd le_rfl hr
  obtain ⟨hidle, hresult⟩ := ht.done
  have hbits : capturedBits t.core = 24 := by simp only [capturedBits, hidle]
  refine ⟨t, t.core.shreg, ht.run, hidle, (ht.inv.clock.idle hidle).trans ht.awake, ht.gainN,
    hresult, ht.bridge, ?_⟩
  have hheld := ht.held
  rwa [SamplesHeld, hbits] at hheld

/-- Settles O57: the wait up to the successful poll, the tick of that poll, and the train. -/
theorem readDuration : Obligations.ReadDuration := by
  intro op a s w hi hop hidle hawake hw hp hbound hr
  obtain ⟨t0, hexec, htick, hrd, hcore⟩ := exec_read_begins hi hop hidle hawake
  have hcfg : t0.cfg = s.cfg := htick.rest.cfg
  have hgain0 : t0.core.gainN = s.core.gainN := by rw [hcore]; rfl
  have hflags0 : t0.core.flags.timeout = false := by rw [hcore]; rfl
  rw [← hcfg, ← hgain0] at hr
  rw [← hcfg] at hp hbound
  rw [← hcfg, ← hgain0]
  have hr0 : NoReset t0 (w + trainTicks t0.cfg t0.core.gainN) := by
    intro i hlt
    rw [inputAt_of_tail htick.rest.inputs htick.rest.tick]
    exact hr (i + 1) (by omega)
  have h0 : Waits t0 0 t0 := .start (htick.inv hi) (congrArg Engine.fsm hcore)
    (congrArg Engine.pollc hcore) fun _ _ => congrArg Engine.tmo hcore
  refine ⟨t0, hexec, fun hhigh hlow => ?_⟩
  obtain ⟨hwaits, t1, ht1, htrain, hgain, htimeout⟩ := train_begins_in h0 hrd
    (congrArg Engine.mode hcore) hw (fun i hlt => hr0 i (by omega)) hp hbound hhigh hlow
  have hruns : ∀ n ≤ trainTicks t0.cfg t0.core.gainN,
      ∃ v, RunsTo (w + n) t0 v ∧ InTrain t1 n v := fun n hn =>
    runsTo_inTrain ht1 htrain hrd (by rwa [ht1.cfg, hgain]) fun i hlt => hr0 i (by omega)
  rw [← ht1.cfg, ← hgain] at hruns ⊢
  refine ⟨fun i hlt => ?_, ?_⟩
  · rcases Nat.lt_or_ge i w with hiw | hiw
    · obtain ⟨v, hv⟩ := hwaits i hiw
      exact ⟨v, hv.run, bne_iff_ne.2 hv.busy⟩
    · have hn : i - w < trainTicks t1.cfg t1.core.gainN := by omega
      obtain ⟨v, hrun, hv⟩ := hruns (i - w) hn.le
      rw [Nat.add_sub_cancel' hiw] at hrun
      exact ⟨v, hrun, bne_iff_ne.2 (hv.busy hn)⟩
  · obtain ⟨t, hrun, ht⟩ := hruns _ le_rfl
    refine ⟨t, hrun, ?_, ht.timeout.trans (htimeout.trans hflags0), ht.bridge.trans ht1.bridge⟩
    rw [busy, ht.done.1]
    rfl

/-- Settles O59: the wait up to its last tick, and the timeout in that tick. -/
theorem waitTimesOutExactly : Obligations.WaitTimesOutExactly := by
  intro s n hi hrd hn hw hp htmo hr hpoll
  obtain ⟨hns, _, _, _, _, _, hpos, _⟩ := configLegal_ranges hi.legal
  have hn1 : 1 ≤ n := hpos n hn
  refine ⟨fun hk => ?_, ?_⟩
  · simp only [readyBound, hk, Option.some.injEq] at hn
    exact hn ▸ bridgeTimeout_bounds hns
  have hwaits := waits_of_polls_high (m := n - 1) (.start hi hw hp fun _ _ => htmo) hrd
    (fun i hlt => hr i (by omega)) (fun i hlt => hpoll i (by omega))
    (fun m hm => by rw [hn, Option.some.injEq] at hm; omega)
  obtain ⟨u, hu⟩ := hwaits (n - 1) le_rfl
  have hlast : n - 1 < n := by omega
  obtain ⟨t, ht, hfsm, hsck, htimeout, hresult⟩ := hu.runs_out hrd (hr _ hlast)
    (hpoll _ hlast u hu.run) hn (Nat.sub_add_cancel hn1).symm
  refine ⟨t, ht.run, hfsm, hsck, htimeout, ht.bridge, hresult, fun i hlt => ?_⟩
  obtain ⟨v, hv⟩ := hwaits i (Nat.le_sub_one_of_lt hlt)
  exact ⟨v, hv.run, hv.fsm, hv.sck⟩

/-- Settles O60: without a bound nothing ends the wait; a bridge always has one. -/
theorem unboundedWaitGoesOn : Obligations.UnboundedWaitGoesOn := by
  intro s n hi hn hw hp hr hpoll
  have hbound : ∀ m, readyBound s.cfg ≠ some m := by simp [hn]
  have hk : s.cfg.kind = .core := by
    cases hk : s.cfg.kind with
    | core => rfl
    | bridge => simp [readyBound, hk] at hn
  have h0 : Waits s 0 s := .start hi hw hp fun m hm => absurd hm (hbound m)
  obtain ⟨t, ht⟩ := waits_of_polls_high h0 (.inl hk) hr hpoll
    (fun m hm => absurd hm (hbound m)) n le_rfl
  exact ⟨hk, t, ht.run, ht.fsm, ht.sck, ht.result⟩

end Sys2Proof
end

section
/-! The core requests (41_core_requests.md): what acceptance does to the engine, branch by branch, and
the tick of a request that is accepted or dropped. -/

namespace Sys2Proof.Machine

section Acceptance
variable {e : Engine}

theorem acceptRead_of_awake (h : e.sleep = false) : acceptRead e = enterWait .rd e :=
  if_neg (by simp [h])

theorem acceptRead_of_asleep (h : e.sleep = true) :
    acceptRead e = raise .sleepErr { e with result := 0 } := if_pos h

theorem acceptWaitrdy_of_awake (h : e.sleep = false) : acceptWaitrdy e = enterWait .rdy e :=
  if_neg (by simp [h])

theorem acceptWaitrdy_of_asleep (h : e.sleep = true) : acceptWaitrdy e = raise .sleepErr e :=
  if_pos h

theorem gainInRange_iff {n : Byte} : gainInRange n = true ↔ n = 1 ∨ n = 2 ∨ n = 3 := by
  simp only [gainInRange, Bool.or_eq_true, beq_iff_eq, or_assoc]

theorem acceptSetgain_of_legal {check : Bool} {n : Byte}
    (h : check = true → n = 1 ∨ n = 2 ∨ n = 3) : acceptSetgain check n e = { e with gainN := n } := by
  cases check with
  | false => rfl
  | true => exact if_neg (by simp [gainInRange_iff.2 (h rfl)])

theorem acceptSetgain_of_illegal {check : Bool} {n : Byte} (hc : check = true)
    (hn : ¬ (n = 1 ∨ n = 2 ∨ n = 3)) : acceptSetgain check n e = raise .badGain e :=
  if_pos (by simp [hc, mt gainInRange_iff.1 hn])

theorem acceptSleep_of_awake (h : e.sleep = false) :
    acceptSleep e = { e with sck := false, c := 1, fsm := .slpLow } := if_neg (by simp [h])

theorem acceptSleep_of_asleep (h : e.sleep = true) : acceptSleep e = e := if_pos h

theorem acceptWake_of_asleep (h : e.sleep = true) :
    acceptWake e = { e with sck := false, sleep := false } := if_pos h

theorem acceptWake_of_awake (h : e.sleep = false) : acceptWake e = e := if_neg (by simp [h])

/-- R110, R146: acceptance raises nothing, or one of the conditions that are not TIMEOUT and not
OVERRUN. -/
theorem Accepted.flags {p : Config} {f : Engine → Engine} (hf : Accepted p f)
    (hc : e.flags = OutcomeFlags.clear) :
    (f e).flags = OutcomeFlags.clear ∨
      ∃ x, x ≠ .timeout ∧ x ≠ .overrun ∧ (f e).flags = setFlag x OutcomeFlags.clear := by
  rw [← hc]
  cases hf with
  | read =>
    cases hs : e.sleep with
    | true => exact .inr ⟨.sleepErr, by simp, by simp, by simp [acceptRead_of_asleep hs]⟩
    | false => exact .inl (by simp [acceptRead_of_awake hs, enterWait])
  | waitrdy =>
    cases hs : e.sleep with
    | true => exact .inr ⟨.sleepErr, by simp, by simp, by simp [acceptWaitrdy_of_asleep hs]⟩
    | false => exact .inl (by simp [acceptWaitrdy_of_awake hs, enterWait])
  | setgain n =>
    unfold acceptSetgain
    split
    · exact .inr ⟨.badGain, by simp, by simp, raise_flags ..⟩
    · exact .inl rfl
  | sleep =>
    cases hs : e.sleep with
    | true => exact .inl (by simp [acceptSleep_of_asleep hs])
    | false => exact .inl (by simp [acceptSleep_of_awake hs])
  | wake =>
    cases hs : e.sleep with
    | true => exact .inl (by simp [acceptWake_of_asleep hs])
    | false => exact .inl (by simp [acceptWake_of_awake hs])
  | reserved => exact .inr ⟨.illegal, by simp, by simp, raise_flags ..⟩

end Acceptance

section RequestTick
variable {s : State} {f : Engine → Engine}

theorem exec_setgain (n : Byte) (s : State) :
    exec (.setgain n) s = .next (requestTick s (acceptSetgain s.cfg.gainCheck n)) := rfl

/-- R131: no request tick moves the bridge or takes a transaction from the bus. -/
theorem elapsedCore_request (s : State) (f : Engine → Engine) : ElapsedCore s (requestTick s f) :=
  ⟨elapsed_commit _ _, rfl, rfl⟩

/-- R110: an idle core accepts. -/
theorem requestTick_core_of_idle (h : s.core.fsm = .idle) :
    (requestTick s f).core = f (clearFlags (latch (sample s) s.core)) := requestEngine_of_idle h

/-- R111: a busy core drops the request with OVERRUN. -/
theorem requestTick_core_of_busy (h : s.core.fsm ≠ .idle) :
    (requestTick s f).core = raise .overrun (quietTick s).core := requestEngine_of_busy h

/-- R123: in the core configuration a reserved op on the port is what the step runs. -/
theorem step_of_reserved {w : Req16} (hl : configLegal s.cfg = true) (hk : s.cfg.kind = .core)
    (hr : (input s).rst = false) (hq : (input s).req = some w)
    (hop : opField w = 0 ∨ 0x06 ≤ (opField w).toNat) : step s = .next (reservedTick s) := by
  have hf : fetch s = none := by
    simp [fetch, fetchWord, hl, hr, hk, hq, decode, decodeReq_reserved hop, Decoded.instr?]
  rw [step_of_no_fetch hf]
  simp [otherTick, hl, hr, hk, hq]

/-- R154: a sleeping chip sleeps on while an idle engine leaves SCK HIGH. -/
theorem chip_stays_asleep {t : State} (he : Elapsed s t) (hi : s.core.fsm = .idle)
    (hs : s.core.sleep = true) (hc : ClockLevels s.core) (hsck : t.core.sck = s.core.sck)
    (ha : s.chip.asleep = true) : t.chip.asleep = true := by
  have hhigh : s.core.sck = true := (hc.idle hi).trans hs
  obtain ⟨x, hx, -⟩ := chipSampled_frame s.core.sck (sample s) (Config.conversionDraw s.tick) s.chip
  rw [he.chip, chipTick, hx, chipEdges_of_high (hsck.trans hhigh) (.inl hhigh) (by simp [hi])]
  exact chipHeldHigh_asleep (.inl ha)

/-- R154, R184: a sleeping chip resumes when SCK goes LOW, its selection not known. -/
theorem chip_resumes {t : State} (he : Elapsed s t) (hi : s.core.fsm = .idle)
    (hsck : t.core.sck = false) (ha : s.chip.asleep = true) :
    t.chip.asleep = false ∧ t.chip.sel = .unknown := by
  obtain ⟨x, hx, -⟩ := chipSampled_frame s.core.sck (sample s) (Config.conversionDraw s.tick) s.chip
  rw [he.chip, chipTick, hx, chipEdges_of_low hsck (by simp [hi]), chipHeldLow, if_pos ha]
  exact ⟨rfl, rfl⟩

end RequestTick

/-- R42: the moves of a busy engine keep GAIN_N, and only the end of the sleep hold writes SLEEP. -/
theorem Moves.busy_gain_sleep {p : Config} {d : Bool} {e e' : Engine} (h : Moves p d e e')
    (hb : e.fsm ≠ .idle) :
    e'.gainN = e.gainN ∧
      (e'.sleep ≠ e.sleep → e.fsm = .slpHold ∧ e'.fsm = .idle ∧ e'.sleep = true) := by
  cases h with
  | gainSet f n hi => exact absurd hi hb
  | wakes f hi => exact absurd hi hb
  | holdEnds f hh => exact ⟨rfl, fun _ => ⟨hh, rfl, rfl⟩⟩
  | _ => exact ⟨rfl, fun hne => absurd rfl hne⟩

end Sys2Proof.Machine

namespace Sys2Proof
open Sys2Proof.Machine

/-- Settles O51: the moves of a busy engine. -/
theorem busyKeepsGainAndSleep : Obligations.BusyKeepsGainAndSleep := by
  intro s t h hr hb
  exact (moves_of_step h hr).busy_gain_sleep hb

/-- Settles O23: the step is the tick of the reserved op, which an idle core accepts. -/
theorem reservedOpRaisesIllegal : Obligations.ReservedOpRaisesIllegal := by
  intro s w hl hr hk hq hi hop
  exact ⟨_, step_of_reserved hl hk hr hq hop, elapsedCore_request _ _, requestTick_core_of_idle hi⟩

/-- Settles O24: each of the five requests, and a reserved one, is a request tick of a busy core. -/
theorem busyRequestOverruns : Obligations.BusyRequestOverruns := by
  intro s hb
  refine ⟨fun i a hmem => ?_, elapsedCore_request _ _, requestTick_core_of_busy hb⟩
  suffices h : ∃ f, exec i s = .next (requestTick s f) by
    obtain ⟨f, hf⟩ := h
    exact ⟨_, hf, elapsedCore_request _ _, requestTick_core_of_busy hb⟩
  simp only [List.mem_cons, List.not_mem_nil, or_false] at hmem
  rcases hmem with rfl | rfl | rfl | rfl | rfl
  · exact ⟨_, exec_read a s⟩
  · exact ⟨_, exec_waitrdy a s⟩
  · exact ⟨_, exec_setgain a s⟩
  · exact ⟨_, exec_sleep a s⟩
  · exact ⟨_, exec_wake a s⟩

/-- Settles O26: the step accepts a request, which raises at most one condition on cleared flags. -/
theorem acceptanceRaisesAtMostOneFlag : Obligations.AcceptanceRaisesAtMostOneFlag := by
  intro s t w hr hk hq hi h
  rcases step_cases h with ⟨hr', _⟩ | ⟨_, ht⟩
  · rw [hr] at hr'
    cases hr'
  rcases step_core ht.legal hk hr with ⟨hq', _⟩ | ⟨_, f, _, hf, hs⟩
  · rw [hq] at hq'
    cases hq'
  rw [hs] at h
  cases h
  rw [requestTick_core_of_idle hi]
  rcases hf.flags (clearFlags_flags (latch (sample s) s.core)) with hx | ⟨x, hnt, hno, hx⟩
  · rw [hx]
    decide
  · rw [hx]
    cases x with
    | timeout => exact absurd rfl hnt
    | overrun => exact absurd rfl hno
    | badGain => decide
    | sleepErr => decide
    | illegal => decide

/-- Settles O13: the awake branch of `acceptRead`. -/
theorem readAccepted : Obligations.ReadAccepted := by
  intro a s hi hs
  exact ⟨_, exec_read a s, elapsedCore_request _ _,
    (requestTick_core_of_idle hi).trans (acceptRead_of_awake hs)⟩

/-- Settles O14: the sleeping branch of `acceptRead`; SCK stays HIGH, so the chip sleeps on. -/
theorem readWhileAsleep : Obligations.ReadWhileAsleep := by
  intro a s hi hs
  have he := elapsedCore_request s acceptRead
  have hcore := (requestTick_core_of_idle hi).trans (acceptRead_of_asleep hs)
  have hsck : (requestTick s acceptRead).core.sck = s.core.sck := by rw [hcore]; rfl
  refine ⟨_, exec_read a s, he, hcore, (congrArg Engine.fsm hcore).trans hi, fun hc => ?_,
    fun ha hc => ?_⟩
  · exact hsck.trans ((hc.idle hi).trans hs)
  · exact chip_stays_asleep he.rest hi hs hc hsck (ha.asleep hs)

/-- Settles O15: the awake branch of `acceptWaitrdy`. -/
theorem waitrdyAccepted : Obligations.WaitrdyAccepted := by
  intro a s hi hs
  exact ⟨_, exec_waitrdy a s, elapsedCore_request _ _,
    (requestTick_core_of_idle hi).trans (acceptWaitrdy_of_awake hs)⟩

/-- Settles O16: the sleeping branch of `acceptWaitrdy`. -/
theorem waitrdyWhileAsleep : Obligations.WaitrdyWhileAsleep := by
  intro a s hi hs
  have hcore := (requestTick_core_of_idle hi).trans (acceptWaitrdy_of_asleep hs)
  exact ⟨_, exec_waitrdy a s, elapsedCore_request _ _, hcore, (congrArg Engine.fsm hcore).trans hi⟩

/-- Settles O17: the count is written, in range or unchecked. -/
theorem setgainAccepted : Obligations.SetgainAccepted := by
  intro n s hi hn
  exact ⟨_, exec_setgain n s, elapsedCore_request _ _,
    (requestTick_core_of_idle hi).trans (acceptSetgain_of_legal hn)⟩

/-- Settles O18: the count is checked and out of range. -/
theorem setgainOutOfRange : Obligations.SetgainOutOfRange := by
  intro n s hi hcheck hn
  exact ⟨_, exec_setgain n s, elapsedCore_request _ _,
    (requestTick_core_of_idle hi).trans (acceptSetgain_of_illegal hcheck hn)⟩

/-- Settles O19: the awake branch of `acceptSleep`. -/
theorem sleepAccepted : Obligations.SleepAccepted := by
  intro a s hi hs
  exact ⟨_, exec_sleep a s, elapsedCore_request _ _,
    (requestTick_core_of_idle hi).trans (acceptSleep_of_awake hs)⟩

/-- Settles O20: the sleeping branch of `acceptSleep`, which leaves SCK where SLEEP has it. -/
theorem sleepWhileAsleep : Obligations.SleepWhileAsleep := by
  intro a s hi hs
  have hcore := (requestTick_core_of_idle hi).trans (acceptSleep_of_asleep hs)
  exact ⟨_, exec_sleep a s, elapsedCore_request _ _, hcore,
    fun hc => (congrArg Engine.sck hcore).trans ((hc.idle hi).trans hs)⟩

/-- Settles O21: the sleeping branch of `acceptWake`; SCK goes LOW, so the chip resumes. -/
theorem wakeAccepted : Obligations.WakeAccepted := by
  intro a s hi hs
  have he := elapsedCore_request s acceptWake
  have hcore := (requestTick_core_of_idle hi).trans (acceptWake_of_asleep hs)
  exact ⟨_, exec_wake a s, he, hcore,
    fun ha => chip_resumes he.rest hi (congrArg Engine.sck hcore) (ha.asleep hs)⟩

/-- Settles O22: the awake branch of `acceptWake`, which leaves SCK where SLEEP has it. -/
theorem wakeWhileAwake : Obligations.WakeWhileAwake := by
  intro a s hi hs
  have hcore := (requestTick_core_of_idle hi).trans (acceptWake_of_awake hs)
  exact ⟨_, exec_wake a s, elapsedCore_request _ _, hcore,
    fun hc => (congrArg Engine.sck hcore).trans ((hc.idle hi).trans hs)⟩

end Sys2Proof
end

section
/-! The sleep transition (R98, R99, R119, R189), and the steps that the bus does not stop (R131,
R139). -/

namespace Sys2Proof.Machine

section Answers
variable {s t : State}

theorem heldAfter_of_bridge (hk : s.cfg.kind = .bridge) : heldAfter s = arrivals s := by
  simp only [heldAfter, hk]

theorem bridgeWriteTick_held (s : State) (f : Engine → Engine) :
    (bridgeWriteTick s f).bus.held = heldAfter s := by
  unfold bridgeWriteTick
  split <;> rfl

/-- R140, R149: every instruction answers a next state, and takes no transaction from the bus. -/
theorem exec_answers (i : Instr) (s : State) :
    ∃ t, exec i s = .next t ∧ t.bus.held = heldAfter s := by
  cases i with
  | read | waitrdy | setgain | sleep | wake => exact ⟨_, rfl, rfl⟩
  | bwGain128 | bwGain32 | bwGain64 | bwSleep | bwWake => exact ⟨_, rfl, bridgeWriteTick_held ..⟩
  | br cmd =>
    refine ⟨bridgeReadTick s, rfl, ?_⟩
    unfold bridgeReadTick
    split <;> rfl

/-- R131, R139: the bridge's tick in B_IDLE, unless it would take a write of a refused length. -/
theorem bridgeIdleTick_answers (hk : s.cfg.kind = .bridge)
    (hx : ∀ x, (arrivals s).head? = some x → badWriteLength x = false) :
    ∃ t, bridgeIdleTick s = .next t ∧ t.bus.held ⊆ heldAfter s := by
  rw [heldAfter_of_bridge hk]
  unfold bridgeIdleTick
  cases ha : arrivals s with
  | nil =>
    have hheld : (quietTick s).bus.held = [] := (heldAfter_of_bridge hk).trans ha
    exact ⟨_, rfl, hheld ▸ List.Subset.refl _⟩
  | cons x rest =>
    have hlen : badWriteLength x = false := hx x (by rw [ha]; rfl)
    simp only [hlen]
    exact ⟨_, rfl, List.subset_cons_self x rest⟩

/-- R140, R149: a step answers a next state unless the bridge would take a write of a refused length,
and what the bus then holds, it held in that tick. -/
theorem step_answers (hl : configLegal s.cfg = true)
    (hx : s.cfg.kind = .bridge → s.bridge.bfsm = .bIdle → (input s).rst = false →
      ∀ x, (arrivals s).head? = some x → badWriteLength x = false) :
    ∃ t, step s = .next t ∧ t.bus.held ⊆ heldAfter s := by
  cases hf : fetch s with
  | some i =>
    obtain ⟨t, ht, hheld⟩ := exec_answers i s
    exact ⟨t, (step_of_fetch hf).trans ht, hheld ▸ List.Subset.refl _⟩
  | none =>
    rw [step_of_no_fetch hf, otherTick, if_neg (by simp [hl])]
    cases hr : (input s).rst with
    | true =>
      refine ⟨_, rfl, ?_⟩
      cases hkeep : s.cfg.bus.keepsHeld with
      | true => simp [resetTick, hkeep]
      | false => simp [resetTick, hkeep]
    | false =>
      cases hk : s.cfg.kind with
      | core =>
        cases (input s).req with
        | none => exact ⟨_, rfl, List.Subset.refl _⟩
        | some w => exact ⟨_, rfl, List.Subset.refl _⟩
      | bridge =>
        cases hb : s.bridge.bfsm with
        | bIdle => exact bridgeIdleTick_answers hk (hx hk hb hr)
        | bWait =>
          refine ⟨_, rfl, ?_⟩
          unfold ignoredWriteTick
          split <;> exact List.Subset.refl _
        | bRun =>
          refine ⟨_, rfl, ?_⟩
          unfold bridgeRunTick
          split <;> exact List.Subset.refl _

end Answers

/-- The bus stops no step in the next `n` ticks: there is no bridge, or no write of a length that R139
refuses comes to it. -/
def Unrefused (s : State) (n : Nat) : Prop := s.cfg.kind = .bridge → LegalTraffic s n

section Unrefused
variable {s t : State} {m n : Nat}

theorem NoReset.mono (h : NoReset s n) (hm : m ≤ n) : NoReset s m :=
  fun i hi => h i (hi.trans_le hm)

theorem Unrefused.mono (h : Unrefused s n) (hm : m ≤ n) : Unrefused s m := fun hk =>
  ⟨(h hk).held, fun i hi => (h hk).arriving i (hi.trans_le hm)⟩

theorem NoReset.tail (h : NoReset s (n + 1)) (hi : t.inputs = s.inputs.tail)
    (ht : t.tick = s.tick + 1) : NoReset t n := fun i hlt => by
  rw [inputAt_of_tail hi ht]
  exact h (i + 1) (Nat.succ_lt_succ hlt)

theorem LegalTraffic.arrivals_legal (h : LegalTraffic s (n + 1)) {x : BusTxn} (hx : x ∈ arrivals s) :
    badWriteLength x = false := by
  rcases mem_arrivals hx with hheld | ⟨harr, hfor⟩
  · exact h.held x hheld
  · exact h.arriving 0 n.succ_pos x harr hfor

theorem Unrefused.tail (h : Unrefused s (n + 1)) (hcfg : t.cfg = s.cfg)
    (hi : t.inputs = s.inputs.tail) (ht : t.tick = s.tick + 1) (hheld : t.bus.held ⊆ heldAfter s) :
    Unrefused t n := by
  intro hk
  rw [hcfg] at hk
  rw [heldAfter_of_bridge hk] at hheld
  refine ⟨fun x hx => (h hk).arrivals_legal (hheld hx), fun i hlt x harr hfor => ?_⟩
  rw [inputAt_of_tail hi ht] at harr
  rw [hcfg] at hfor
  exact (h hk).arriving (i + 1) (Nat.succ_lt_succ hlt) x harr hfor

/-- Where the bus stops nothing, the machine steps on. -/
theorem Unrefused.step (h : Unrefused s (n + 1)) (hl : configLegal s.cfg = true) :
    ∃ t, step s = .next t ∧ Unrefused t n := by
  obtain ⟨t, hs, hheld⟩ := step_answers hl fun hk _ _ x hx =>
    (h hk).arrivals_legal (List.mem_of_mem_head? hx)
  obtain ⟨hcfg, hi, ht⟩ := step_inputs hs
  exact ⟨t, hs, h.tail hcfg hi ht hheld⟩

end Unrefused

/-- R189: the number of ticks of the sleep transition. -/
def sleepTicks (p : Config) : Nat := p.tLow + p.tSleepHold

/-- Where an engine stands that entered SLPLOW `n` ticks ago (R98, R99): in one of the two phases,
whose ticks C counts, or at the end. -/
inductive SleepPoint (p : Config) (n : Nat) (e : Engine) : Prop where
  | low (hf : e.fsm = .slpLow) (hn : n + 1 = e.c) : SleepPoint p n e
  | hold (hf : e.fsm = .slpHold) (hn : n + 1 = p.tLow + e.c) : SleepPoint p n e
  | done (hf : e.fsm = .idle) (hn : n = sleepTicks p) (hs : e.sleep = true) : SleepPoint p n e

section SleepPoint
variable {p : Config} {d : Bool} {e e' : Engine} {n : Nat}

/-- R98, R99: each move of the transition goes on to its next tick, or ends it. -/
theorem Moves.sleepPoint (h : Moves p d e e') (hc : CounterRanges p e) (hp : SleepPoint p n e)
    (hb : e.fsm ≠ .idle) : SleepPoint p (n + 1) e' := by
  cases hp with
  | low hf hn =>
    cases h with
    | slpLowOn f hl hlt => exact .low hl (congrArg (· + 1) hn)
    | holdBegins f hl hle =>
      have hceq : e.c = p.tLow := Nat.le_antisymm (hc.c_low (.inr hf)) hle
      exact .hold rfl (congrArg (· + 1) (hn.trans hceq))
    | _ => simp_all
  | hold hf hn =>
    cases h with
    | holdOn f hh hlt => exact .hold hh (congrArg (· + 1) hn)
    | holdEnds f hh hle =>
      have hceq : e.c = p.tSleepHold := Nat.le_antisymm (hc.c_hold hf) hle
      exact .done rfl (hn.trans (congrArg (p.tLow + ·) hceq)) rfl
    | _ => simp_all
  | done hf => exact absurd hf hb

/-- R189: before its end the transition is busy and awake, with SCK HIGH after the first P_T_LOW
ticks only. -/
theorem SleepPoint.before_end (h : SleepPoint p n e) (hcl : ClockLevels e) (hc : CounterRanges p e)
    (hn : n < sleepTicks p) :
    e.fsm ≠ .idle ∧ e.sleep = false ∧ e.sck = decide (p.tLow ≤ n) := by
  cases h with
  | low hf hc' =>
    have hb : e.fsm ≠ .idle := by simp [hf]
    have hlow : ¬ p.tLow ≤ n := by have := hc.c_low (.inr hf); omega
    exact ⟨hb, hcl.awake hb, by rw [hcl.down (.inr (.inr hf)), decide_eq_false hlow]⟩
  | hold hf hc' =>
    have hb : e.fsm ≠ .idle := by simp [hf]
    have hhigh : p.tLow ≤ n := by have := hc.c_pos; omega
    exact ⟨hb, hcl.awake hb, by rw [hcl.up (.inr hf), decide_eq_true hhigh]⟩
  | done _ heq => exact absurd heq hn.ne

/-- R99: at its end the engine is idle and asleep. -/
theorem SleepPoint.at_end (h : SleepPoint p (sleepTicks p) e) (hc : CounterRanges p e) :
    e.fsm = .idle ∧ e.sleep = true := by
  have hticks : sleepTicks p = p.tLow + p.tSleepHold := rfl
  cases h with
  | low hf hn => have := hc.c_low (.inr hf); omega
  | hold hf hn => have := hc.c_hold hf; omega
  | done hf _ hs => exact ⟨hf, hs⟩

end SleepPoint

section SleepRun
variable {s t : State} {m n : Nat}

/-- R119, R135: SLEEP accepted awake, in either configuration. -/
theorem exec_sleep_begins {op : Instr} {a : Byte} (hi : Inv s)
    (hop : (s.cfg.kind = .core ∧ op = .sleep a) ∨
      (s.cfg.kind = .bridge ∧ s.bridge.bfsm = .bWait ∧ op = .bwSleep))
    (hidle : s.core.fsm = .idle) (hawake : s.core.sleep = false) :
    ∃ t, exec op s = .next t ∧ Ticked s t ∧ t.bus.held = heldAfter s ∧ SleepPoint s.cfg 0 t.core := by
  have hpoint : SleepPoint s.cfg 0 (requestTick s acceptSleep).core := by
    have hcore := (requestTick_core_of_idle hidle).trans (acceptSleep_of_awake hawake)
    exact hcore ▸ .low rfl rfl
  rcases hop with ⟨hk, rfl⟩ | ⟨hk, hb, rfl⟩
  · exact ⟨_, exec_sleep a s, ticked_request hi.legal hk .sleep, rfl, hpoint⟩
  · refine ⟨_, rfl, ticked_bridgeWrite hi.legal hk hb (.inr (.inl rfl)), bridgeWriteTick_held .., ?_⟩
    rwa [bridgeWriteTick, if_pos hidle]

/-- R130, R189: without reset, a sleep transition that is `n` ticks old is `n + m` ticks old `m` ticks
later. -/
theorem sleep_runs (hi : Inv s) (hr : NoReset s m) (hu : Unrefused s m)
    (hp : SleepPoint s.cfg n s.core) (hn : n + m ≤ sleepTicks s.cfg) :
    ∃ t, RunsTo m s t ∧ Inv t ∧ SleepPoint s.cfg (n + m) t.core := by
  induction m generalizing s n with
  | zero => exact ⟨s, runsTo_zero.2 rfl, hi, hp⟩
  | succ m ih =>
    have hr0 : (input s).rst = false := hr 0 m.succ_pos
    have hb : s.core.fsm ≠ .idle := (hp.before_end hi.clock hi.counters (by omega)).1
    obtain ⟨u, hs, huu⟩ := hu.step hi.legal
    obtain ⟨hcfg, hinputs, htick⟩ := step_inputs hs
    have hpu := (moves_of_step hs hr0).sleepPoint hi.counters hp hb
    rw [← hcfg] at hpu hn ⊢
    obtain ⟨t, hrun, hinv, hpt⟩ := ih (stepKeepsTheInvariant s u hi hs) (hr.tail hinputs htick) huu
      hpu (by omega)
    exact ⟨t, runsTo_succ.2 ⟨u, hs, hrun⟩, hinv, by rwa [Nat.add_right_comm] at hpt⟩

end SleepRun
end Sys2Proof.Machine

namespace Sys2Proof
open Sys2Proof.Machine

/-- Settles O58: SLEEP begins the transition, which then runs through to its end. -/
theorem sleepDuration : Obligations.SleepDuration := by
  intro op a s hi hop hidle hawake hr
  have hticks : 1 + s.cfg.tLow + s.cfg.tSleepHold = sleepTicks s.cfg + 1 := by
    unfold sleepTicks
    omega
  rw [hticks] at hop hr
  have hus : Unrefused s (sleepTicks s.cfg + 1) := fun hk =>
    hop.elim (fun ⟨hk', _⟩ => by rw [hk] at hk'; cases hk') fun ⟨_, _, _, htraffic⟩ => htraffic
  obtain ⟨t0, hexec, htick, hheld, hp⟩ := exec_sleep_begins hi
    (hop.imp_right fun ⟨hk, hb, he, _⟩ => ⟨hk, hb, he⟩) hidle hawake
  obtain ⟨hcfg, -, hinputs, htime⟩ := htick.rest
  have hi0 : Inv t0 := htick.inv hi
  have hr0 : NoReset t0 (sleepTicks s.cfg) := hr.tail hinputs htime
  have hu0 := hus.tail hcfg hinputs htime (hheld ▸ List.Subset.refl _)
  have hrun : ∀ i ≤ sleepTicks s.cfg,
      ∃ u, RunsTo i t0 u ∧ Inv u ∧ u.cfg = s.cfg ∧ SleepPoint s.cfg i u.core := by
    intro i hle
    obtain ⟨u, hu, hiu, hpu⟩ := sleep_runs (n := 0) hi0 (hr0.mono hle) (hu0.mono hle)
      (hcfg ▸ hp) (by rwa [Nat.zero_add, hcfg])
    exact ⟨u, hu, hiu, (runsTo_inputs hu).1.trans hcfg, by rwa [hcfg, Nat.zero_add] at hpu⟩
  obtain ⟨t, ht, hit, htcfg, hpt⟩ := hrun _ le_rfl
  obtain ⟨hidle', hsleep⟩ := hpt.at_end (htcfg ▸ hit.counters)
  refine ⟨t0, t, hexec, ht, hidle', hsleep, (hit.clock.idle hidle').trans hsleep,
    hit.chip.asleep hsleep, fun i hlt => ?_⟩
  obtain ⟨u, hu, hiu, hucfg, hpu⟩ := hrun i hlt.le
  obtain ⟨hb, hs, hsck⟩ := hpu.before_end hiu.clock (hucfg ▸ hiu.counters) hlt
  exact ⟨u, hu, bne_iff_ne.2 hb, hs, hsck⟩

end Sys2Proof
end

section
/-! The bridge controller (42_bridge.md): what each transaction runs, the step in each BFSM state
(R131), what the bus holds (R52, R139), and the response to a read (R138). -/

namespace Sys2Proof.Machine

/-! #### What a transaction runs (R132 to R136, R138) -/

section Transactions
variable {s : State} {f : Engine → Engine}

/-- R69, R132. -/
theorem exec_bwGain128 (s : State) :
    exec .bwGain128 s = .next (bridgeWriteTick s (acceptSetgain s.cfg.gainCheck 1)) := rfl

/-- R69, R133. -/
theorem exec_bwGain32 (s : State) :
    exec .bwGain32 s = .next (bridgeWriteTick s (acceptSetgain s.cfg.gainCheck 2)) := rfl

/-- R69, R134. -/
theorem exec_bwGain64 (s : State) :
    exec .bwGain64 s = .next (bridgeWriteTick s (acceptSetgain s.cfg.gainCheck 3)) := rfl

theorem exec_bwSleep (s : State) : exec .bwSleep s = .next (bridgeWriteTick s acceptSleep) := rfl

theorem exec_bwWake (s : State) : exec .bwWake s = .next (bridgeWriteTick s acceptWake) := rfl

theorem exec_br (cmd : Byte) (s : State) : exec (.br cmd) s = .next (bridgeReadTick s) := rfl

theorem bridgeWriteTick_of_idle (h : s.core.fsm = .idle) :
    bridgeWriteTick s f = completeWrite (requestTick s f) := if_pos h

theorem ignoredWriteTick_of_idle (h : s.core.fsm = .idle) :
    ignoredWriteTick s = completeWrite (quietTick s) := if_pos h

theorem bridgeReadTick_of_idle (h : s.core.fsm = .idle) : bridgeReadTick s =
    { requestTick s acceptRead with bridge := { s.bridge with bfsm := .bRun } } := if_pos h

theorem bridgeRunTick_of_idle (h : s.core.fsm = .idle) : bridgeRunTick s =
    { quietTick s with
      bridge := { s.bridge with bfsm := .bIdle }
      bus := { held := heldAfter s
               out := .response (responseBytes s.core.result s.bridge.blen s.tick) } } := if_pos h

theorem elapsed_completeWrite (s : State) (e : Engine) : Elapsed s (completeWrite (commit s e)) :=
  ⟨rfl, rfl, rfl, rfl⟩

/-- R81: no quiet tick moves the bridge or takes a transaction from the bus. -/
theorem elapsedCore_quiet (s : State) : ElapsedCore s (quietTick s) := ⟨elapsed_commit _ _, rfl, rfl⟩

/-- R81: a quiet tick of an idle engine only latches the sample. -/
theorem quietTick_core_of_idle (h : s.core.fsm = .idle) :
    (quietTick s).core = latch (sample s) s.core := quietEngine_of_idle h

/-- R131: with the core idle a mapped write does to the engine what its request does, and completes. -/
theorem exec_write_of_idle {i : Instr} {e : Engine} (hx : exec i s = .next (bridgeWriteTick s f))
    (hi : s.core.fsm = .idle) (he : f (clearFlags (latch (sample s) s.core)) = e) :
    ∃ t, exec i s = .next t ∧ Elapsed s t ∧ t.core = e ∧
      t.bridge = { s.bridge with bfsm := .bIdle } ∧
      t.bus = { held := heldAfter s, out := .writeDone } := by
  rw [bridgeWriteTick_of_idle hi] at hx
  exact ⟨_, hx, elapsed_completeWrite _ _, (requestTick_core_of_idle hi).trans he, rfl, rfl⟩

/-- R130: with the core idle a mapped write leaves core and chip as its request does. -/
theorem exec_write_same_core {i j : Instr} (hx : exec i s = .next (bridgeWriteTick s f))
    (hj : exec j s = .next (requestTick s f)) (hi : s.core.fsm = .idle) :
    ∃ t u, exec i s = .next t ∧ exec j s = .next u ∧ t.core = u.core ∧ t.chip = u.chip := by
  rw [bridgeWriteTick_of_idle hi] at hx
  exact ⟨_, _, hx, hj, rfl, rfl⟩

end Transactions

/-! #### The step in each state of the bridge (R131) -/

/-- R131: what the bridge's ticks outside B_IDLE have in common: they wait for the core, take nothing
from the bus, and keep the transaction that the bridge works on. -/
structure KeepsTransaction (s t : State) : Prop where
  waits : s.core.fsm ≠ .idle → t = quietTick s
  held : t.bus.held = heldAfter s
  btxn : t.bridge.btxn = s.bridge.btxn
  blen : t.bridge.blen = s.bridge.blen

section BridgeStates
variable {s t : State} {f : Engine → Engine}

/-- R155: nothing has a meaning outside the parameter ranges. -/
theorem step_of_illegal (h : configLegal s.cfg = false) : step s = .refused .configOutOfRange := by
  have hf : fetch s = none := by simp [fetch, fetchWord, h]
  rw [step_of_no_fetch hf]
  simp [otherTick, h]

/-- R131: the shape of those ticks. -/
theorem keepsTransaction_ite (hheld : t.bus.held = heldAfter s)
    (hbtxn : t.bridge.btxn = s.bridge.btxn) (hblen : t.bridge.blen = s.bridge.blen) :
    KeepsTransaction s (if s.core.fsm = .idle then t else quietTick s) := by
  split
  · next hi => exact ⟨absurd hi, hheld, hbtxn, hblen⟩
  · exact ⟨fun _ => rfl, rfl, rfl, rfl⟩

theorem keepsTransaction_write : KeepsTransaction s (bridgeWriteTick s f) :=
  keepsTransaction_ite rfl rfl rfl

theorem keepsTransaction_ignored : KeepsTransaction s (ignoredWriteTick s) :=
  keepsTransaction_ite rfl rfl rfl

theorem keepsTransaction_read : KeepsTransaction s (bridgeReadTick s) :=
  keepsTransaction_ite rfl rfl rfl

theorem keepsTransaction_run : KeepsTransaction s (bridgeRunTick s) :=
  keepsTransaction_ite rfl rfl rfl

/-- R71: an instruction of the transaction port is a write that is mapped to a request, or a read. -/
theorem keepsTransaction_exec {i : Instr} {p : CmdBytes} {w : Btx9} (he : encode p i = .btx w) :
    ∃ t, exec i s = .next t ∧ KeepsTransaction s t := by
  cases i with
  | read | waitrdy | setgain | sleep | wake => cases he
  | bwGain128 | bwGain32 | bwGain64 | bwSleep | bwWake => exact ⟨_, rfl, keepsTransaction_write⟩
  | br cmd => exact ⟨_, exec_br cmd s, keepsTransaction_read⟩

section Legal
variable (hl : configLegal s.cfg = true) (hk : s.cfg.kind = .bridge) (hr : (input s).rst = false)
include hl hk hr

theorem fetch_of_bWait (hb : s.bridge.bfsm = .bWait) :
    fetch s = (decodeBtx s.cfg.cmd s.bridge.btxn).instr? := by
  simp [fetch, fetchWord, hl, hk, hr, hb, decode]

theorem step_of_held {i : Instr} (hb : s.bridge.bfsm = .bWait)
    (hd : decodeBtx s.cfg.cmd s.bridge.btxn = .instr i) : step s = exec i s := by
  apply step_of_fetch
  rw [fetch_of_bWait hl hk hr hb, hd, Decoded.instr?]

/-- R137: a word that the decoder ignores. -/
theorem step_of_ignored {c : Byte} (hb : s.bridge.bfsm = .bWait)
    (hd : decodeBtx s.cfg.cmd s.bridge.btxn = .ignoredWrite c) :
    step s = .next (ignoredWriteTick s) := by
  have hf : fetch s = none := by rw [fetch_of_bWait hl hk hr hb, hd, Decoded.instr?]
  rw [step_of_no_fetch hf]
  simp [otherTick, hl, hk, hr, hb]

theorem step_of_bIdle (hb : s.bridge.bfsm = .bIdle) : step s = bridgeIdleTick s := by
  have hf : fetch s = none := by simp [fetch, fetchWord, hl, hk, hr, hb]
  rw [step_of_no_fetch hf]
  simp [otherTick, hl, hk, hr, hb]

theorem step_keepsTransaction (hb : s.bridge.bfsm ≠ .bIdle) :
    ∃ t, step s = .next t ∧ KeepsTransaction s t := by
  cases hb' : s.bridge.bfsm with
  | bIdle => exact absurd hb' hb
  | bWait =>
    rcases decodeBtx_cases s.cfg.cmd s.bridge.btxn with ⟨-, hd⟩ | ⟨-, i, hd, he⟩
    · exact ⟨_, step_of_ignored hl hk hr hb' hd, keepsTransaction_ignored⟩
    · rw [step_of_held hl hk hr hb' hd]
      exact keepsTransaction_exec he
  | bRun => exact ⟨_, step_of_bRun hl hk hb' hr, keepsTransaction_run⟩

end Legal

/-- R139: the length that a write must have. -/
theorem badWriteLength_iff {x : BusTxn} :
    badWriteLength x = true ↔ dirField x.word = false ∧ x.len ≠ 1 := by
  simp [badWriteLength]

theorem bridgeIdleTick_of_none (h : arrivals s = []) : bridgeIdleTick s = .next (quietTick s) := by
  simp only [bridgeIdleTick, h]

theorem bridgeIdleTick_of_some {x : BusTxn} {rest : List BusTxn} (h : arrivals s = x :: rest)
    (hx : badWriteLength x = false) :
    bridgeIdleTick s = .next { quietTick s with
      bridge := { bfsm := .bWait, btxn := x.word, blen := x.len }
      bus := { held := rest, out := .quiet } } := by
  simp only [bridgeIdleTick, h, hx, Bool.false_eq_true, if_false]

theorem bridgeIdleTick_of_bad {x : BusTxn} {rest : List BusTxn} (h : arrivals s = x :: rest)
    (hx : badWriteLength x = true) : bridgeIdleTick s = .refused .busWriteLength := by
  simp only [bridgeIdleTick, h, hx, if_true]

end BridgeStates

/-! #### What the bus holds (R131, P_BUS) -/

section Arrivals
variable {s : State} {p : Config} {x : BusTxn}

/-- R52, R139: the transactions that are for the bridge. -/
theorem forBridge_iff :
    forBridge p x = true ↔ x.addr = p.bridgeAddr ∧ (dirField x.word = false ∨ x.len ≠ 0) := by
  simp [forBridge]

theorem arrivals_of_none (h : (input s).txn = none) : arrivals s = s.bus.held := by
  simp only [arrivals, h]

theorem arrivals_of_other (h : (input s).txn = some x) (hx : ¬ forBridge s.cfg x = true) :
    arrivals s = s.bus.held := by
  simp only [arrivals, h, hx, Bool.false_eq_true, if_false]

theorem arrivals_of_forBridge (h : (input s).txn = some x) (hx : forBridge s.cfg x = true) :
    arrivals s = holdMore s.cfg s.bus.held x := by
  simp only [arrivals, h, hx, if_true]

/-- P_BUS: a transaction that finds none waiting is held; one that finds some waits in a queue only. -/
theorem holdMore_eq (held : List BusTxn) : holdMore p held x =
    if held = [] then [x] else if p.bus.hold = .queue then held ++ [x] else held := by
  unfold holdMore
  cases held with
  | nil => cases p.bus.hold <;> rfl
  | cons y ys => cases p.bus.hold <;> rfl

end Arrivals

/-! #### The response (R138, R139) -/

theorem responseBytes_length (r : Sample32) (len n : Nat) : (responseBytes r len n).length = len := by
  simp only [responseBytes, responseFrame, List.length_append, List.length_take, List.length_map,
    List.length_range, List.length_cons, List.length_nil]
  omega

/-- R139: the free values come after the frame only. -/
theorem take_responseBytes (r : Sample32) (len n : Nat) :
    (responseBytes r len n).take 4 = (responseFrame r).take len := by
  have hframe : (responseFrame r).length = 4 := rfl
  rcases Nat.le_total len 4 with hle | hle
  · simp [responseBytes, Nat.sub_eq_zero_of_le hle, List.take_take, hle]
  · rw [responseBytes, List.take_of_length_le (hframe.trans_le hle)]
    exact List.take_left' hframe

end Sys2Proof.Machine

namespace Sys2Proof
open Sys2Proof.Machine

/-- Settles O40: the tick of B_RUN with the core idle. -/
theorem bridgeReadResponds : Obligations.BridgeReadResponds := by
  intro s hl hr hk hb hi
  have hstep := step_of_bRun hl hk hb hr
  rw [bridgeRunTick_of_idle hi] at hstep
  exact ⟨_, _, hstep, ⟨rfl, rfl, rfl, rfl⟩, quietTick_core_of_idle hi, rfl, rfl,
    responseBytes_length .., take_responseBytes ..⟩

/-- Settles O41: the decoder ignores the word, and the tick presents nothing. -/
theorem ignoredWriteChangesNothing : Obligations.IgnoredWriteChangesNothing := by
  intro s hl hr hk hb hdir hcmd hi
  have hd : decodeBtx s.cfg.cmd s.bridge.btxn = .ignoredWrite (cmdField s.bridge.btxn) := by
    rcases decodeBtx_cases s.cfg.cmd s.bridge.btxn with ⟨-, hd⟩ | ⟨hn, -⟩
    · exact hd
    · exact absurd ⟨hdir, hcmd⟩ hn
  have hstep := step_of_ignored hl hk hr hb hd
  rw [ignoredWriteTick_of_idle hi] at hstep
  exact ⟨_, hstep, elapsed_completeWrite _ _, quietTick_core_of_idle hi, rfl, rfl⟩

/-- Settles O42: B_IDLE by what the bus holds, the other states by `step_keepsTransaction`, and what
the bus holds by what arrives. -/
theorem bridgeTakesOldestTransaction : Obligations.BridgeTakesOldestTransaction := by
  intro s hl hr hk
  have hheld : heldAfter s = arrivals s := heldAfter_of_bridge hk
  have hquiet : (quietTick s).bus = { held := arrivals s, out := .quiet } := hheld ▸ rfl
  refine ⟨fun x rest hb ha hx => ?_, fun hb ha => ?_, fun hb hbusy => ?_, fun t hb h => ?_,
    arrivals_of_none, fun x hx hother => ?_, fun x hx hread haddr => ?_⟩
  · exact ⟨_, (step_of_bIdle hl hk hr hb).trans (bridgeIdleTick_of_some ha hx),
      ⟨rfl, rfl, rfl, rfl⟩, rfl, rfl, rfl⟩
  · exact ⟨_, (step_of_bIdle hl hk hr hb).trans (bridgeIdleTick_of_none ha),
      elapsedCore_quiet s, rfl, hb, ha ▸ hquiet⟩
  · obtain ⟨t, h, hkeeps⟩ := step_keepsTransaction hl hk hr hb
    obtain rfl := hkeeps.waits hbusy
    exact ⟨_, h, elapsedCore_quiet s, rfl, rfl, hquiet⟩
  · obtain ⟨u, hu, hkeeps⟩ := step_keepsTransaction hl hk hr hb
    cases hu.symm.trans h
    exact ⟨hkeeps.held.trans hheld, hkeeps.btxn, hkeeps.blen⟩
  · refine arrivals_of_other hx (mt forBridge_iff.1 ?_)
    rcases hother with ⟨hdir, hzero⟩ | hne
    · simp [hdir, hzero]
    · simp [hne]
  · rw [arrivals_of_forBridge hx (forBridge_iff.2 ⟨haddr, hread⟩), holdMore_eq]

/-- Settles O43: each transaction's tick with the core idle is the request's, but for bridge and bus. -/
theorem bridgeDrivesTheSameCore : Obligations.BridgeDrivesTheSameCore := by
  intro i j c s hij hi
  simp only [List.mem_cons, List.not_mem_nil, or_false, Prod.mk.injEq] at hij
  rcases hij with ⟨rfl, rfl⟩ | ⟨rfl, rfl⟩ | ⟨rfl, rfl⟩ | ⟨rfl, rfl⟩ | ⟨rfl, rfl⟩ | ⟨rfl, rfl⟩
  · exact exec_write_same_core (exec_bwGain128 s) (exec_setgain 1 s) hi
  · exact exec_write_same_core (exec_bwGain32 s) (exec_setgain 2 s) hi
  · exact exec_write_same_core (exec_bwGain64 s) (exec_setgain 3 s) hi
  · exact exec_write_same_core (exec_bwSleep s) (exec_sleep 0 s) hi
  · exact exec_write_same_core (exec_bwWake s) (exec_wake 0 s) hi
  · have hx := exec_br c s
    rw [bridgeReadTick_of_idle hi] at hx
    exact ⟨_, _, hx, exec_read 0 s, rfl, rfl⟩

/-- Settles O7: the held word is what this tick fetches. -/
theorem stepRunsTheHeldTransaction : Obligations.StepRunsTheHeldTransaction :=
  fun _ _ hl hk hr hb hd => step_of_held hl hk hr hb hd

/-- Settles O9: the refusal of R155 in every tick, and that of R139 in B_IDLE. -/
theorem refusalsAreTheSpecs : Obligations.RefusalsAreTheSpecs := by
  intro s
  refine ⟨step_of_illegal, fun x rest hl hr hk hb ha hdir hlen => ?_⟩
  rw [step_of_bIdle hl hk hr hb]
  exact bridgeIdleTick_of_bad ha (badWriteLength_iff.2 ⟨hdir, hlen⟩)

/-- Settles O35: the three counts are in the range of R116. -/
theorem bridgeGainWrites : Obligations.BridgeGainWrites := by
  intro i n s hin hi
  simp only [List.mem_cons, List.not_mem_nil, or_false, Prod.mk.injEq] at hin
  rcases hin with ⟨rfl, rfl⟩ | ⟨rfl, rfl⟩ | ⟨rfl, rfl⟩
  · exact exec_write_of_idle (exec_bwGain128 s) hi (acceptSetgain_of_legal fun _ => by decide)
  · exact exec_write_of_idle (exec_bwGain32 s) hi (acceptSetgain_of_legal fun _ => by decide)
  · exact exec_write_of_idle (exec_bwGain64 s) hi (acceptSetgain_of_legal fun _ => by decide)

/-- Settles O36: the two branches of `acceptSleep`. -/
theorem bridgeSleepWrite : Obligations.BridgeSleepWrite := by
  intro s hi
  refine exec_write_of_idle (exec_bwSleep s) hi ?_
  cases hs : s.core.sleep with
  | true => exact acceptSleep_of_asleep hs
  | false => exact acceptSleep_of_awake hs

/-- Settles O37: the two branches of `acceptWake`. -/
theorem bridgeWakeWrite : Obligations.BridgeWakeWrite := by
  intro s hi
  refine exec_write_of_idle (exec_bwWake s) hi ?_
  cases hs : s.core.sleep with
  | true => exact acceptWake_of_asleep hs
  | false => exact acceptWake_of_awake hs

/-- Settles O38: the two branches of `acceptRead`, presented from the bridge. -/
theorem bridgeReadPresentsRead : Obligations.BridgeReadPresentsRead := by
  intro c s hi
  have hx := exec_br c s
  rw [bridgeReadTick_of_idle hi] at hx
  refine ⟨_, hx, ⟨rfl, rfl, rfl, rfl⟩, (requestTick_core_of_idle hi).trans ?_, rfl, rfl⟩
  cases hs : s.core.sleep with
  | true => exact acceptRead_of_asleep hs
  | false => exact acceptRead_of_awake hs

/-- Settles O39: each of the six is a transaction, and keeps it while the core is busy. -/
theorem heldTransactionWaits : Obligations.HeldTransactionWaits := by
  intro i c s hmem hb
  obtain ⟨t, hx, hkeeps⟩ : ∃ t, exec i s = .next t ∧ KeepsTransaction s t := by
    simp only [List.mem_cons, List.not_mem_nil, or_false] at hmem
    rcases hmem with rfl | rfl | rfl | rfl | rfl | rfl <;>
      exact keepsTransaction_exec (p := s.cfg.cmd) rfl
  obtain rfl := hkeeps.waits hb
  exact ⟨_, hx, elapsedCore_quiet s, rfl⟩

end Sys2Proof
end

section
/-! The exceptional conditions and the chip's contract (60_exceptions.md R149, R151, R153): what changes
the chip's selection, what the end of a reading programs, and which conversion a reading delivers. -/

namespace Sys2Proof.Machine

section ChipShift
variable {n : Nat} {pre post : Engine} {c : Chip} {v : Conversion}

/-- R154: while the chip is awake, or SCK is HIGH, the level of SCK changes neither its selection nor
what it converts or shifts. -/
theorem chipHeld_frame {sck : Bool} (hc : c.asleep = false ∨ sck = true) :
    ∃ a m, (if sck then chipHeldHigh n c else chipHeldLow c) = { c with asleep := a, hold := m } := by
  split
  · exact ⟨_, _, rfl⟩
  · next hs =>
    rw [chipHeldLow_of_awake (hc.resolve_right hs)]
    exact ⟨_, _, rfl⟩

/-- R151: a later pulse goes on with the shift. -/
theorem chipPulse_of_shifting (first : Bool) (hp : c.phase = .shifting v) :
    (chipPulse first c).phase = .shifting v := by
  simp [chipPulse, hp]

/-- R151, R153: only the end of a reading, and SCK LOW while asleep, change the selection or end a
shift. -/
theorem chipEdges_keeps (hf : ¬ (pre.fsm = .low ∧ post.fsm = .idle))
    (hc : c.asleep = false ∨ post.sck = true) :
    (chipEdges n pre post c).sel = c.sel ∧
      ∀ v, c.phase = .shifting v → (chipEdges n pre post c).phase = .shifting v := by
  obtain ⟨a, m, hheld⟩ := chipHeld_frame (n := n) hc
  unfold chipEdges
  dsimp only
  rw [hheld]
  split
  · exact ⟨rfl, fun v hp => chipPulse_of_shifting _ hp⟩
  · rw [if_neg (by simpa using hf)]
    exact ⟨rfl, fun v hp => hp⟩

theorem chipSampled_of_shifting (sck d : Bool) (w : U24) (hp : c.phase = .shifting v) :
    chipSampled sck d w c = c := by
  simp only [chipSampled, hp]

/-- R153: the end of a reading with `24 + m` pulses. -/
theorem chipReadingDone_programs {m : Nat} (hp : c.pulses = 24 + m) :
    (1 ≤ m → m ≤ 3 →
      (chipReadingDone c).sel = .programmed m ∧ (chipReadingDone c).phase = .converting) ∧
    (¬ (1 ≤ m ∧ m ≤ 3) →
      (chipReadingDone c).sel = .unknown ∧ (chipReadingDone c).phase = .uncertain) := by
  have hcount : (25 ≤ c.pulses ∧ c.pulses ≤ 27) ↔ (1 ≤ m ∧ m ≤ 3) := by omega
  have hsel : c.pulses - 24 = m := by omega
  unfold chipReadingDone
  rw [if_congr hcount rfl rfl, hsel]
  exact ⟨fun hlo hhi => by rw [if_pos ⟨hlo, hhi⟩]; exact ⟨rfl, rfl⟩,
    fun hno => by rw [if_neg hno]; exact ⟨rfl, rfl⟩⟩

end ChipShift

section Ends
variable {p : Config} {d : Bool} {e e' : Engine}

/-- R94: LOW leads to IDLE only after the last pulse. -/
theorem Moves.low_to_idle (h : Moves p d e e') (hl : e.fsm = .low) (hi : e'.fsm = .idle) :
    totalPulses e.gainN ≤ e.k.toNat + 1 ∧ e'.sck = e.sck := by
  cases h with
  | readingDone f hl hc hk => exact ⟨hk, rfl⟩
  | _ => simp_all

/-- R89 to R91: HIGH does not lead to IDLE. -/
theorem Moves.high_not_to_idle (h : Moves p d e e') (hh : e.fsm = .high) : e'.fsm ≠ .idle := by
  cases h with
  | highOn => simp [hh]
  | bitCaptured | gainPulseEnds => exact Fsm.noConfusion
  | _ => simp_all

end Ends

section ChipStep
variable {s t : State}

/-- R20: a step without reset is one tick of the engine, seen by the chip. -/
theorem ticked_of_step (h : step s = .next t) (hr : (input s).rst = false) : Ticked s t := by
  rcases step_cases h with ⟨hr', _⟩ | ⟨_, ht⟩
  · rw [hr] at hr'
    cases hr'
  · exact ht

/-- R153, R154: what can change the chip's selection in one tick. -/
theorem Elapsed.sel_changes (h : Elapsed s t) (hne : t.chip.sel ≠ s.chip.sel) :
    (s.core.fsm = .low ∧ t.core.fsm = .idle) ∨ (s.chip.asleep = true ∧ t.core.sck = false) := by
  obtain ⟨x, hx, -⟩ := chipSampled_frame s.core.sck (sample s) (Config.conversionDraw s.tick) s.chip
  rw [h.chip, chipTick, hx] at hne
  by_contra hno
  obtain ⟨hf, hc⟩ := not_or.1 hno
  have hc' : s.chip.asleep = false ∨ t.core.sck = true := by
    rwa [not_and_or, Bool.not_eq_true, Bool.not_eq_false] at hc
  exact hne (chipEdges_keeps (c := { s.chip with phase := x }) hf hc').1

/-- R151: a tick inside a train goes on with the shift. -/
theorem Elapsed.shift_goes_on {v : Conversion} (h : Elapsed s t) (ha : s.chip.asleep = false)
    (hi : t.core.fsm ≠ .idle) (hp : s.chip.phase = .shifting v) : t.chip.phase = .shifting v := by
  rw [h.chip, chipTick, chipSampled_of_shifting _ _ _ hp]
  exact (chipEdges_keeps (fun hf => hi hf.2) (.inl ha)).2 v hp

/-- R93, R153: at the end of a reading the chip has counted the `24 + GAIN_N` pulses. -/
theorem Ticked.reading_ends (h : Ticked s t) (hs : Inv s) (hl : s.core.fsm = .low)
    (hi : t.core.fsm = .idle) :
    ∃ c : Chip, t.chip = chipReadingDone c ∧ c.pulses = 24 + s.core.gainN.toNat := by
  obtain ⟨hlast, hsck⟩ := h.moves.low_to_idle hl hi
  have hlow : s.core.sck = false := hs.clock.down (.inr (.inl hl))
  have hcount : s.chip.pulses = 24 + s.core.gainN.toNat := by
    have hk := hs.counters.k_train (.inr hl)
    have hp := hs.chip.pulses (.inr hl)
    unfold totalPulses at hlast
    omega
  obtain ⟨x, hx, -⟩ := chipSampled_frame s.core.sck (sample s) (Config.conversionDraw s.tick) s.chip
  refine ⟨chipHeldLow { s.chip with phase := x }, ?_, ?_⟩
  · rw [h.rest.chip, chipTick, hx, chipEdges_of_done (hsck.trans hlow) hl hi]
  · rw [chipHeldLow_of_awake]
    · exact hcount
    · exact (hs.chip.low hlow).1

/-- R155: the chip is awake during a reading. -/
theorem Inv.chip_awake (h : Inv s) (hf : s.core.fsm = .high ∨ s.core.fsm = .low) :
    s.chip.asleep = false := by
  rcases hf with hh | hl
  · exact (h.chip.high hh).2
  · exact (h.chip.low (h.clock.down (.inr (.inl hl)))).1

/-- R151: with the chip driving DOUT, the sample of the last HIGH tick of a data pulse is the bit that
the chip shifts out. -/
theorem sample_of_data_pulse {v : Conversion} (h : Inv s) (hpresent : s.cfg.chipPresent = true)
    (hd : (input s).dout = none) (hf : s.core.fsm = .high) (hc : s.cfg.tHigh ≤ s.core.c)
    (hk : s.core.k.toNat < 24) (hp : s.chip.phase = .shifting v) :
    sample s = v.value.getLsbD (23 - s.core.k.toNat) := by
  have hpulses := h.chip.pulses (.inl hf)
  rw [sample_of_unscripted hd, hpresent, atSamplePoint_iff.2 ⟨h.clock.up (.inl hf), hf, hc⟩,
    chipLevel_data (h.chip_awake (.inl hf)) hp (by omega), hpulses]
  congr 1
  omega

end ChipStep

section TrainShift
variable {s u : State} {v : Conversion} {n : Nat}

theorem RunsTo.unique {t : State} (hu : RunsTo n s u) (ht : RunsTo n s t) : u = t :=
  Host.Outcome.next.inj (hu.symm.trans ht)

theorem RunsTo.step_to {t : State} (hu : RunsTo n s u) (ht : RunsTo (n + 1) s t) :
    step u = .next t := by
  obtain ⟨w, hw, hlast⟩ := runsTo_add.1 ht
  obtain ⟨x, hx, hxt⟩ := runsTo_succ.1 hlast
  rw [hu.unique hw, hx, runsTo_zero.1 hxt]

/-- R82: the last HIGH tick of pulse `j`. -/
theorem trainTick_last_high {p : Config} {e : Engine} {j : Nat} (hl : configLegal p = true)
    (hc : CounterRanges p e) (hf : e.fsm = .high ∨ e.fsm = .low)
    (h : trainTick p e = j * pulseTicks p + (p.tHigh - 1)) :
    e.fsm = .high ∧ e.k.toNat = j ∧ e.c = p.tHigh := by
  obtain ⟨_, hH, _⟩ := configLegal_ranges hl
  obtain ⟨hlt, hiff⟩ := pulseTick_lt hc hf
  have hlast : p.tHigh - 1 < pulseTicks p := by
    unfold pulseTicks
    omega
  have htick : pulseTick p e = p.tHigh - 1 := by
    have hmod := congrArg (· % pulseTicks p) h
    simpa only [trainTick, Nat.mul_add_mod', Nat.mod_eq_of_lt hlt, Nat.mod_eq_of_lt hlast] using hmod
  have hk : e.k.toNat = j := by
    rw [trainTick, htick] at h
    exact Nat.eq_of_mul_eq_mul_right ((Nat.zero_le _).trans_lt hlast) (Nat.add_right_cancel h)
  have hhigh : e.fsm = .high := hiff.1 (by omega)
  refine ⟨hhigh, hk, ?_⟩
  have hpos := hc.c_pos
  rw [pulseTick_of_high hhigh] at htick
  omega

/-- R151: the chip shifts out one and the same conversion until the train ends. -/
theorem inTrain_shifts (h0 : InTrain s 0 s) (hrd : ReadRuns s) (hp : s.chip.phase = .shifting v)
    (hr : NoReset s n) (hn : n < trainTicks s.cfg s.core.gainN) :
    ∃ u, InTrain s n u ∧ u.chip.phase = .shifting v := by
  induction n with
  | zero => exact ⟨s, h0, hp⟩
  | succ n ih =>
    have hn' := Nat.lt_of_succ_lt hn
    obtain ⟨u, hu, hshift⟩ := ih (hr.mono n.le_succ) hn'
    have hreset := hr n n.lt_succ_self
    obtain ⟨t, ht⟩ := hu.next hrd hn' hreset
    have htick := ticked_of_step (hu.run.step_to ht.run) (hu.input_eq ▸ hreset)
    have hawake := hu.inv.chip_awake (hu.pulses hn').1
    exact ⟨t, ht, htick.rest.shift_goes_on hawake (ht.busy hn) hshift⟩

/-- R83, R102: the sample point of a data pulse falls inside the train. -/
theorem sample_point_lt {p : Config} {j : Nat} (hl : configLegal p = true) (g : Byte) (hj : j < 24) :
    j * pulseTicks p + (p.tHigh - 1) < trainTicks p g := by
  obtain ⟨_, hH, _⟩ := configLegal_ranges hl
  have hpulse : p.tHigh - 1 < pulseTicks p := by
    unfold pulseTicks
    omega
  have htotal : j + 1 ≤ totalPulses g := by
    unfold totalPulses
    omega
  calc j * pulseTicks p + (p.tHigh - 1) < j * pulseTicks p + pulseTicks p :=
        Nat.add_lt_add_left hpulse _
    _ = (j + 1) * pulseTicks p := (Nat.succ_mul ..).symm
    _ ≤ trainTicks p g := Nat.mul_le_mul_right _ htotal

/-- R151: with the chip driving DOUT, the sample of data pulse `j` is bit `23 - j` of the conversion. -/
theorem sample_of_train {j : Nat} (h0 : InTrain s 0 s) (hrd : ReadRuns s)
    (hpresent : s.cfg.chipPresent = true) (hp : s.chip.phase = .shifting v)
    (hr : NoReset s (trainTicks s.cfg s.core.gainN))
    (hd : Unscripted s (trainTicks s.cfg s.core.gainN)) (hj : j < 24)
    (hu : RunsTo (j * pulseTicks s.cfg + (s.cfg.tHigh - 1)) s u) :
    sample u = v.value.getLsbD (23 - j) := by
  have hn := sample_point_lt h0.inv.legal s.core.gainN hj
  obtain ⟨w, hw, hshift⟩ := inTrain_shifts h0 hrd hp (hr.mono hn.le) hn
  obtain rfl := hu.unique hw.run
  obtain ⟨hphase, hpos⟩ := hw.pulses hn
  obtain ⟨hhigh, hk, hc⟩ :=
    trainTick_last_high h0.inv.legal (hw.cfg ▸ hw.inv.counters) hphase hpos
  rw [sample_of_data_pulse hw.inv (hw.cfg ▸ hpresent) (hw.input_eq ▸ hd _ hn) hhigh
    (hw.cfg ▸ hc.ge) (hk ▸ hj) hshift, hk]

/-- R94: a train has a last tick, in LOW. -/
theorem InTrain.last_step {t : State} (ht : InTrain s (trainTicks s.cfg s.core.gainN) t)
    (h0 : InTrain s 0 s) (hrd : ReadRuns s) (hr : NoReset s (trainTicks s.cfg s.core.gainN)) :
    ∃ u, Inv u ∧ step u = .next t ∧ (input u).rst = false ∧ u.core.fsm = .low ∧
      u.core.gainN = s.core.gainN := by
  have hpos : 0 < trainTicks s.cfg s.core.gainN :=
    (Nat.zero_le _).trans_lt (sample_point_lt h0.inv.legal s.core.gainN (by decide : 0 < 24))
  obtain ⟨n, hlen⟩ := Nat.exists_eq_add_one.2 hpos
  have hn : n < trainTicks s.cfg s.core.gainN := hlen ▸ n.lt_succ_self
  obtain ⟨u, hu⟩ := inTrain_of_noReset h0 hrd hn.le (hr.mono hn.le)
  have hstep := hu.run.step_to (hlen ▸ ht.run)
  have hreset : (input u).rst = false := hu.input_eq ▸ hr n hn
  have hnot : u.core.fsm ≠ .high := fun hh =>
    (moves_of_step hstep hreset).high_not_to_idle hh ht.done.1
  exact ⟨u, hu.inv, hstep, hreset, (hu.pulses hn).1.resolve_left hnot, hu.gainN⟩

end TrainShift
end Sys2Proof.Machine

namespace Sys2Proof
open Sys2Proof.Machine

/-- Settles O8, from `step_answers`, which says the same of a step and what the bus then holds. -/
theorem stepAnswersANextState : Obligations.StepAnswersANextState := by
  intro s hl hx
  obtain ⟨t, ht, -⟩ := step_answers hl hx
  exact ⟨t, ht⟩

/-- Settles O46: the chip has counted `24 + GAIN_N` pulses when the reading ends. -/
theorem readingProgramsTheChip : Obligations.ReadingProgramsTheChip := by
  intro s t hs h hr hl hi
  obtain ⟨c, hc, hpulses⟩ := (ticked_of_step h hr).reading_ends hs hl hi
  rw [hc]
  exact chipReadingDone_programs hpulses

/-- Settles O47: besides the end of a reading and reset, only SCK LOW while asleep changes the
selection, and of the falls of SCK that is WAKE's, since a chip in a pulse is awake. -/
theorem selectionChangesOnlyBySck : Obligations.SelectionChangesOnlyBySck := by
  intro s t hs h hne
  rcases step_cases h with ⟨hr, _⟩ | ⟨hr, ht⟩
  · exact .inl hr
  refine .inr ((ht.rest.sel_changes hne).imp_right fun ⟨hasleep, hdown⟩ => ?_)
  have hup : s.core.sck = true := by
    by_contra hlow
    have hawake := (hs.chip.low (Bool.not_eq_true _ ▸ hlow)).1
    simp [hasleep] at hawake
  rcases (clockEdges s t hs h (by simp [hup, hdown])).2 hdown with hreset | ⟨hh, _⟩ | ⟨_, hwake⟩
  · simp [hr] at hreset
  · simp [(hs.chip.high hh).2] at hasleep
  · exact hwake

/-- Settles O56: the 24 samples of O55 are the bits of the conversion that the chip shifts out, and the
last tick of the train programs the chip by O46. -/
theorem readingDeliversTheConversion : Obligations.ReadingDeliversTheConversion := by
  intro s v hi hrd hpresent hf hk hc hp hr hd
  have h0 : InTrain s 0 s := .start hi hf hk hc
  obtain ⟨t, v', hrun, hidle, -, -, hresult, -, hbits⟩ :=
    pulseTrainDeliversTheSamples s hi hrd hf hk hc hr
  have hvalue : v' = v.value := by
    refine BitVec.eq_of_getLsbD_eq fun i hlt => ?_
    obtain ⟨u, hu, hbit⟩ := hbits (23 - i) (by omega)
    have hsample := sample_of_train h0 hrd hpresent hp hr hd (by omega) hu
    rwa [← hbit, Nat.sub_sub_self (Nat.le_of_lt_succ hlt)] at hsample
  refine ⟨t, hrun, hidle, hvalue ▸ hresult, ?_⟩
  obtain ⟨t', ht⟩ := inTrain_of_noReset h0 hrd le_rfl hr
  obtain rfl := hrun.unique ht.run
  obtain ⟨u, hu, hstep, hreset, hlow, hgain⟩ := ht.last_step h0 hrd hr
  exact hgain ▸ (readingProgramsTheChip u t hu hstep hreset hlow hidle).1

end Sys2Proof
end

section
/-! The reset tick (70_reset_and_hazards.md R170, R171): the step while the reset line is HIGH, and what
it leaves of the chip. -/

namespace Sys2Proof.Machine

/-- R170: no instruction stands before the machine in a reset tick, whatever is presented. -/
theorem fetch_of_reset {s : State} (hr : (input s).rst = true) : fetch s = none := by
  simp [fetch, fetchWord, hr]

theorem step_of_reset {s : State} (hl : configLegal s.cfg = true) (hr : (input s).rst = true) :
    step s = .next (resetTick s) := by
  rw [step_of_no_fetch (fetch_of_reset hr)]
  simp [otherTick, hl, hr]

@[simp] theorem resetTick_bus_out (s : State) : (resetTick s).bus.out = .quiet := rfl

section ChipAtReset
variable (pre : Engine) (d : Bool) (v : U24) (c : Chip)

/-- R171: SCK is LOW in a reset tick, so the chip is awake after it. -/
theorem chipReset_awake : (chipReset pre d v c).asleep = false := by
  have hfits : ChipFits (Engine.reset Config.coreDefault) (chipReset pre d v c) := chipFits_reset ..
  exact ((chipFits_iff_of_quiescent (.inl rfl) rfl).1 hfits).1.1

/-- R184: the selection of the first conversion after reset is not known, whether the reset cuts a
train or a hold short, wakes the chip, or finds it awake. -/
theorem chipReset_sel : (chipReset pre d v c).sel = .unknown := by
  unfold chipReset
  dsimp only
  split
  · rfl
  split
  · rfl
  · rfl

end ChipAtReset
end Sys2Proof.Machine

namespace Sys2Proof
open Sys2Proof.Machine

/-- Settles O11: the step is `Machine.resetTick`, whose engine, bridge and bus are fixed and whose chip is
`chipReset` of the old one. -/
theorem resetTick : Obligations.ResetTick := fun s hl hr =>
  ⟨Machine.resetTick s, step_of_reset hl hr, rfl, rfl, rfl, rfl, chipReset_awake .., chipReset_sel ..,
    rfl, rfl⟩

end Sys2Proof
end

section
/-! What becomes of a conversion that is ready (60_exceptions.md R150, R151, R153), and the top byte of a
response (30_encoding.md R53, R76). -/

namespace Sys2Proof.Machine

section ReadyChip
variable {n : Nat} {pre post : Engine} {c : Chip} {v : Conversion}

/-- R150, R153: an awake chip that converts and shows LOW has a conversion ready, under the selection it
holds. -/
theorem chipSampled_completes (w : U24) (ha : c.asleep = false) (hp : c.phase = .converting) :
    (chipSampled false false w c).phase = .ready ⟨w, c.sel⟩ := by
  simp [chipSampled, hp, ha]

theorem chipSampled_of_ready (sck d : Bool) (w : U24) (hp : c.phase = .ready v) :
    chipSampled sck d w c = c := by
  simp only [chipSampled, hp]

theorem chipSampled_asleep (sck d : Bool) (w : U24) (c : Chip) :
    (chipSampled sck d w c).asleep = c.asleep := by
  obtain ⟨x, hx, -⟩ := chipSampled_frame sck d w c
  rw [hx]

/-- R150: outside a train, an awake chip keeps its phase until a pulse begins. -/
theorem chipEdges_keeps_phase (ha : c.asleep = false) (hl : pre.fsm ≠ .low) (hh : post.fsm ≠ .high) :
    (chipEdges n pre post c).phase = c.phase := by
  obtain ⟨a, m, hheld⟩ := chipHeld_frame (n := n) (sck := post.sck) (.inl ha)
  unfold chipEdges
  dsimp only
  rw [hheld, if_neg (by simp [hh]), if_neg (by simp [hl])]

/-- R150, R151: the first pulse of a train begins the shift of the conversion that is ready. -/
theorem chipEdges_begins_shift (hp : c.phase = .ready v) (hw : pre.fsm = .wait)
    (hs : pre.sck = false) (hs' : post.sck = true) (hh : post.fsm = .high) :
    (chipEdges n pre post c).phase = .shifting v ∧ (chipEdges n pre post c).pulses = 1 := by
  rw [chipEdges_of_rise hs hs' hh]
  simp [chipPulse, chipHeldHigh, hp, hw]

end ReadyChip

/-- R87: a train begins in WAIT. -/
theorem Moves.train_begins {p : Config} {d : Bool} {e e' : Engine} (h : Moves p d e e')
    (hf : ¬ (e.fsm = .high ∨ e.fsm = .low)) (hh : e'.fsm = .high) : e.fsm = .wait := by
  cases h with
  | trainBegins f hw => exact hw
  | nextPulse f hl => exact absurd (.inr hl) hf
  | _ => simp_all

section ReadyStep
variable {s t : State} {v : Conversion}

/-- R150: while a conversion is ready after the sample of the tick, no train is in progress. -/
theorem ChipAgrees.not_in_train (h : ChipAgrees s) {sck d : Bool} {w : U24}
    (hp : (chipSampled sck d w s.chip).phase = .ready v) :
    ¬ (s.core.fsm = .high ∨ s.core.fsm = .low) := by
  obtain ⟨x, hx, -, htrain⟩ := chipSampled_frame sck d w s.chip
  obtain rfl : x = .ready v := by rwa [hx] at hp
  exact fun hf => htrain.2 ((ChipPhase.inTrain_iff _).2 (h.train hf))

/-- R150, R151: with SCK LOW, a conversion that is ready after the sample of the tick stays ready, or is
the one whose shift begins. -/
theorem Ticked.ready_stays_or_shifts (h : Ticked s t) (hs : Inv s) (hsck : s.core.sck = false)
    (hp : (chipSampled s.core.sck (sample s) (Config.conversionDraw s.tick) s.chip).phase =
      .ready v) :
    (t.core.fsm ≠ .high → t.chip.phase = .ready v) ∧
      (t.core.fsm = .high → t.chip.phase = .shifting v ∧ t.chip.pulses = 1) := by
  have hf := hs.chip.not_in_train hp
  rw [h.rest.chip, chipTick]
  constructor
  · intro hh
    have hawake : s.chip.asleep = false := (hs.chip.low hsck).1
    rw [chipEdges_keeps_phase ((chipSampled_asleep ..).trans hawake) (fun hl => hf (.inr hl)) hh, hp]
  · intro hh
    have hup : t.core.sck = true := (h.moves.clockLevels hs.clock).up (.inl hh)
    exact chipEdges_begins_shift hp (h.moves.train_begins hf hh) hsck hup hh

end ReadyStep

/-- R76: of a sign-extended 24-bit value, bit 7 of the second byte is the sign that the top byte
repeats. -/
theorem topByte_of_sample {r : Sample32} (h : r = sext32 (r.extractLsb' 0 24)) :
    r.extractLsb' 24 8 = if (r.extractLsb' 16 8).getLsbD 7 then 0xFF else 0x00 := by
  have hsign : (r.extractLsb' 0 24).getLsbD 23 = (r.extractLsb' 16 8).getLsbD 7 := by
    rw [BitVec.getLsbD_extractLsb', BitVec.getLsbD_extractLsb']
    rfl
  calc r.extractLsb' 24 8 = (sext32 (r.extractLsb' 0 24)).extractLsb' 24 8 := by rw [← h]
    _ = if (r.extractLsb' 0 24).getLsbD 23 then 0xFF else 0x00 := sext32_top_byte _
    _ = if (r.extractLsb' 16 8).getLsbD 7 then 0xFF else 0x00 := by rw [hsign]

end Sys2Proof.Machine

namespace Sys2Proof
open Sys2Proof.Machine

/-- Settles O34: the top byte of a sign-extended value repeats bit 23, which is bit 7 of the next
byte. -/
theorem responseTopByteIsSign : Obligations.ResponseTopByteIsSign := fun _ h => topByte_of_sample h

/-- Settles O45: a conversion that the sample completes, and one that was ready before, stay ready or
begin to be shifted out. -/
theorem conversionKeepsItsSelection : Obligations.ConversionKeepsItsSelection := by
  intro s t hs h hr
  have htick := ticked_of_step h hr
  have hcompletes : s.chip.phase = .converting → s.core.sck = false → sample s = false →
      ∃ v, (t.core.fsm ≠ .high → t.chip.phase = .ready ⟨v, s.chip.sel⟩) ∧
        (t.core.fsm = .high → t.chip.phase = .shifting ⟨v, s.chip.sel⟩ ∧ t.chip.pulses = 1) := by
    intro hp hsck hd
    refine ⟨Config.conversionDraw s.tick, htick.ready_stays_or_shifts hs hsck ?_⟩
    rw [hsck, hd]
    exact chipSampled_completes _ (hs.chip.low hsck).1 hp
  have hready : ∀ v, s.chip.phase = .ready v → s.core.sck = false →
      (t.core.fsm ≠ .high → t.chip.phase = .ready v) ∧
        (t.core.fsm = .high → t.chip.phase = .shifting v ∧ t.chip.pulses = 1) := by
    intro v hp hsck
    refine htick.ready_stays_or_shifts hs hsck ?_
    rwa [chipSampled_of_ready _ _ _ hp]
  refine ⟨fun hp hsck hd hh => ?_, fun hp hsck hd hh => ?_,
    fun v hp hsck => (hready v hp hsck).1, fun v hp hsck => (hready v hp hsck).2⟩
  · exact (hcompletes hp hsck hd).imp fun _ hv => hv.1 hh
  · exact (hcompletes hp hsck hd).imp fun _ hv => hv.2 hh

end Sys2Proof
end
